-- ==== Sys2Proof/Word.lean ====
section
/-! DEFINITION. The two word types of the machine (spec/00_scope.md R4, R6): a byte is the width of A, X, Y, SP, P and
of a memory cell; an address is the width of PC and of the bus. All arithmetic on them wraps at their width. -/

namespace Sys2Proof

/-- `XLEN` = 8 bits (R4). -/
abbrev Byte := BitVec 8

/-- `ALEN` = 16 bits (R4). -/
abbrev Addr := BitVec 16

end Sys2Proof
end

