-- ==== Sys2Proof/Machine/Bits.lean ====
section
/-! DEFINITION. Bit fields, extensions and byte order (spec/00_scope.md R6, spec/20_memory.md R47), used by the decoder
and by the machine. -/

namespace Sys2Proof.Machine

/-- `{hi, lo}` (R6): the 16 bit value whose high byte is `hi`; with R47, `lo` is the byte at the lower address. -/
def word (hi lo : Byte) : Addr := hi ++ lo

/-- `a[15:8]` (R6): the page of `a` (R8). -/
def hiByte (a : Addr) : Byte := a.extractLsb' 8 8

/-- `a[7:0]` (R6). -/
def loByte (a : Addr) : Byte := a.extractLsb' 0 8

/-- `zext_16` (R6). -/
def zext16 (b : Byte) : Addr := b.setWidth 16

/-- `sext_16` (R6): two's complement widened to 16 bits. -/
def sext16 (b : Byte) : Addr := b.signExtend 16

/-- `{0x00, b}` (R73): the zero-page address of `b`. -/
def zeroPage (b : Byte) : Addr := word 0x00#8 b

/-- `crossed(base, ea)` (R104): the two lie in different pages. -/
def crossedPage (base ea : Addr) : Bool := hiByte base != hiByte ea

end Sys2Proof.Machine
end

