-- ==== Sys2Proof/Syntax.lean ====
section
/-! DEFINITION. The instructions: one constructor for each of the 151 official rows of spec/opcode_table.json, named
after the row's mnemonic and addressing mode and carrying the row's operand bytes (R71, R73): none, one byte `op8` or `v`,
or the 16 bit address `{hi, lo}`; and `illegal op` for the 105 ILLEGAL rows, which share one rule (R221). -/

namespace Sys2Proof

inductive Instr where
  -- spec/41_load_store_transfer.md
  | ldaImm (v : Byte)
  | ldaZp (op8 : Byte)
  | ldaZpx (op8 : Byte)
  | ldaAbs (addr : Addr)
  | ldaAbx (addr : Addr)
  | ldaAby (addr : Addr)
  | ldaIzx (op8 : Byte)
  | ldaIzy (op8 : Byte)
  | ldxImm (v : Byte)
  | ldxZp (op8 : Byte)
  | ldxZpy (op8 : Byte)
  | ldxAbs (addr : Addr)
  | ldxAby (addr : Addr)
  | ldyImm (v : Byte)
  | ldyZp (op8 : Byte)
  | ldyZpx (op8 : Byte)
  | ldyAbs (addr : Addr)
  | ldyAbx (addr : Addr)
  | staZp (op8 : Byte)
  | staZpx (op8 : Byte)
  | staAbs (addr : Addr)
  | staAbx (addr : Addr)
  | staAby (addr : Addr)
  | staIzx (op8 : Byte)
  | staIzy (op8 : Byte)
  | stxZp (op8 : Byte)
  | stxZpy (op8 : Byte)
  | stxAbs (addr : Addr)
  | styZp (op8 : Byte)
  | styZpx (op8 : Byte)
  | styAbs (addr : Addr)
  -- spec/41_load_store_transfer.md
  | tax
  | tay
  | txa
  | tya
  | tsx
  | txs
  -- spec/42_arithmetic.md
  | adcImm (v : Byte)
  | adcZp (op8 : Byte)
  | adcZpx (op8 : Byte)
  | adcAbs (addr : Addr)
  | adcAbx (addr : Addr)
  | adcAby (addr : Addr)
  | adcIzx (op8 : Byte)
  | adcIzy (op8 : Byte)
  | sbcImm (v : Byte)
  | sbcZp (op8 : Byte)
  | sbcZpx (op8 : Byte)
  | sbcAbs (addr : Addr)
  | sbcAbx (addr : Addr)
  | sbcAby (addr : Addr)
  | sbcIzx (op8 : Byte)
  | sbcIzy (op8 : Byte)
  -- spec/43_incdec.md
  | incZp (op8 : Byte)
  | incZpx (op8 : Byte)
  | incAbs (addr : Addr)
  | incAbx (addr : Addr)
  | inx
  | iny
  | decZp (op8 : Byte)
  | decZpx (op8 : Byte)
  | decAbs (addr : Addr)
  | decAbx (addr : Addr)
  | dex
  | dey
  -- spec/44_shift_rotate.md
  | aslAcc
  | aslZp (op8 : Byte)
  | aslZpx (op8 : Byte)
  | aslAbs (addr : Addr)
  | aslAbx (addr : Addr)
  | lsrAcc
  | lsrZp (op8 : Byte)
  | lsrZpx (op8 : Byte)
  | lsrAbs (addr : Addr)
  | lsrAbx (addr : Addr)
  | rolAcc
  | rolZp (op8 : Byte)
  | rolZpx (op8 : Byte)
  | rolAbs (addr : Addr)
  | rolAbx (addr : Addr)
  | rorAcc
  | rorZp (op8 : Byte)
  | rorZpx (op8 : Byte)
  | rorAbs (addr : Addr)
  | rorAbx (addr : Addr)
  -- spec/45_logical.md
  | andImm (v : Byte)
  | andZp (op8 : Byte)
  | andZpx (op8 : Byte)
  | andAbs (addr : Addr)
  | andAbx (addr : Addr)
  | andAby (addr : Addr)
  | andIzx (op8 : Byte)
  | andIzy (op8 : Byte)
  | oraImm (v : Byte)
  | oraZp (op8 : Byte)
  | oraZpx (op8 : Byte)
  | oraAbs (addr : Addr)
  | oraAbx (addr : Addr)
  | oraAby (addr : Addr)
  | oraIzx (op8 : Byte)
  | oraIzy (op8 : Byte)
  | eorImm (v : Byte)
  | eorZp (op8 : Byte)
  | eorZpx (op8 : Byte)
  | eorAbs (addr : Addr)
  | eorAbx (addr : Addr)
  | eorAby (addr : Addr)
  | eorIzx (op8 : Byte)
  | eorIzy (op8 : Byte)
  | bitZp (op8 : Byte)
  | bitAbs (addr : Addr)
  -- spec/46_compare.md
  | cmpImm (v : Byte)
  | cmpZp (op8 : Byte)
  | cmpZpx (op8 : Byte)
  | cmpAbs (addr : Addr)
  | cmpAbx (addr : Addr)
  | cmpAby (addr : Addr)
  | cmpIzx (op8 : Byte)
  | cmpIzy (op8 : Byte)
  | cpxImm (v : Byte)
  | cpxZp (op8 : Byte)
  | cpxAbs (addr : Addr)
  | cpyImm (v : Byte)
  | cpyZp (op8 : Byte)
  | cpyAbs (addr : Addr)
  -- spec/47_branch.md
  | bcc (op8 : Byte)
  | bcs (op8 : Byte)
  | beq (op8 : Byte)
  | bne (op8 : Byte)
  | bmi (op8 : Byte)
  | bpl (op8 : Byte)
  | bvc (op8 : Byte)
  | bvs (op8 : Byte)
  -- spec/48_jump_call.md
  | jmpAbs (addr : Addr)
  | jmpInd (addr : Addr)
  | jsr (addr : Addr)
  | rts
  | rti
  -- spec/49_stack_flags_system.md
  | pha
  | php
  | pla
  | plp
  | clc
  | sec
  | cli
  | sei
  | cld
  | sed
  | clv
  | nop
  | brk
  -- spec/60_exceptions.md R221: the opcode byte itself
  | illegal (op : Byte)
deriving DecidableEq, Repr

end Sys2Proof
end

