-- ==== Sys2Proof/Decode.lean ====
section
/-! DEFINITION. Instruction encoding (spec/30_encoding.md): the vocabulary of the descriptor (R74), the opcode map (R75,
R76) as a table, the decoder, and the encoder. Decoding is a lookup of the opcode byte (R70); it is total (R74). -/

namespace Sys2Proof

open Sys2Proof.Machine

/-- The 56 official mnemonics (R75), in the order of the family files, and the table's ILLEGAL (R77). -/
inductive Mnemonic where
  | lda | ldx | ldy | sta | stx | sty
  | tax | tay | txa | tya | tsx | txs
  | adc | sbc
  | inc | inx | iny | dec | dex | dey
  | asl | lsr | rol | ror
  | and | ora | eor | bit
  | cmp | cpx | cpy
  | bcc | bcs | beq | bne | bmi | bpl | bvc | bvs
  | jmp | jsr | rts | rti
  | pha | php | pla | plp | clc | sec | cli | sei | cld | sed | clv | nop | brk
  | illegal
deriving DecidableEq, Repr

/-- The thirteen addressing modes (R90). -/
inductive Mode where
  | imp | acc | imm | zp | zpx | zpy | abs | abx | aby | ind | izx | izy | rel
deriving DecidableEq, Repr

/-- A mode with the operand bytes it takes (R73); the two bytes of a 16 bit operand are already joined. -/
inductive Operand where
  | imp | acc
  | imm (v : Byte) | zp (op8 : Byte) | zpx (op8 : Byte) | zpy (op8 : Byte)
  | abs (addr : Addr) | abx (addr : Addr) | aby (addr : Addr) | ind (ptr : Addr)
  | izx (op8 : Byte) | izy (op8 : Byte) | rel (op8 : Byte)
deriving DecidableEq, Repr

/-- The operand byte width of each mode (R71, and the Bytes column of R106). -/
def Mode.width : Mode → Nat
  | .imp | .acc => 0
  | .imm | .zp | .zpx | .zpy | .izx | .izy | .rel => 1
  | .abs | .abx | .aby | .ind => 2

def Operand.mode : Operand → Mode
  | .imp => .imp
  | .acc => .acc
  | .imm _ => .imm
  | .zp _ => .zp
  | .zpx _ => .zpx
  | .zpy _ => .zpy
  | .abs _ => .abs
  | .abx _ => .abx
  | .aby _ => .aby
  | .ind _ => .ind
  | .izx _ => .izx
  | .izy _ => .izy
  | .rel _ => .rel

/-- The length of an instruction with this operand: one opcode byte and the operand bytes (R70, R79). -/
def Operand.length (o : Operand) : Nat := 1 + o.mode.width

/-- The Instruction Descriptor (R74). -/
structure Descriptor where
  mnemonic : Mnemonic
  mode : Mode
  baseCycles : Nat
  pageCrossExtra : Bool
deriving DecidableEq, Repr

/-- How a row turns its operand bytes into the instruction: the formats F1, F2, F3 (R71). -/
inductive Form where
  | f1 (i : Instr)
  | f2 (mk : Byte → Instr)
  | f3 (mk : Addr → Instr)

/-- One official row of spec/opcode_table.json. -/
structure Row where
  opcode : Byte
  desc : Descriptor
  form : Form

def rowF1 (op : Byte) (m : Mnemonic) (mode : Mode) (cycles : Nat) (i : Instr) : Row := ⟨op, ⟨m, mode, cycles, false⟩, .f1 i⟩

def rowF2 (op : Byte) (m : Mnemonic) (mode : Mode) (cycles : Nat) (plus : Bool) (mk : Byte → Instr) : Row :=
  ⟨op, ⟨m, mode, cycles, plus⟩, .f2 mk⟩

def rowF3 (op : Byte) (m : Mnemonic) (mode : Mode) (cycles : Nat) (plus : Bool) (mk : Addr → Instr) : Row :=
  ⟨op, ⟨m, mode, cycles, plus⟩, .f3 mk⟩

/-- R75, the mnemonics of spec/41_load_store_transfer.md: opcode, mode, base cycles, page-cross flag. -/
def opcodesLoadStore : List Row := [
  rowF2 0xA9 .lda .imm 2 false .ldaImm,
  rowF2 0xA5 .lda .zp 3 false .ldaZp,
  rowF2 0xB5 .lda .zpx 4 false .ldaZpx,
  rowF3 0xAD .lda .abs 4 false .ldaAbs,
  rowF3 0xBD .lda .abx 4 true .ldaAbx,
  rowF3 0xB9 .lda .aby 4 true .ldaAby,
  rowF2 0xA1 .lda .izx 6 false .ldaIzx,
  rowF2 0xB1 .lda .izy 5 true .ldaIzy,
  rowF2 0xA2 .ldx .imm 2 false .ldxImm,
  rowF2 0xA6 .ldx .zp 3 false .ldxZp,
  rowF2 0xB6 .ldx .zpy 4 false .ldxZpy,
  rowF3 0xAE .ldx .abs 4 false .ldxAbs,
  rowF3 0xBE .ldx .aby 4 true .ldxAby,
  rowF2 0xA0 .ldy .imm 2 false .ldyImm,
  rowF2 0xA4 .ldy .zp 3 false .ldyZp,
  rowF2 0xB4 .ldy .zpx 4 false .ldyZpx,
  rowF3 0xAC .ldy .abs 4 false .ldyAbs,
  rowF3 0xBC .ldy .abx 4 true .ldyAbx,
  rowF2 0x85 .sta .zp 3 false .staZp,
  rowF2 0x95 .sta .zpx 4 false .staZpx,
  rowF3 0x8D .sta .abs 4 false .staAbs,
  rowF3 0x9D .sta .abx 5 false .staAbx,
  rowF3 0x99 .sta .aby 5 false .staAby,
  rowF2 0x81 .sta .izx 6 false .staIzx,
  rowF2 0x91 .sta .izy 6 false .staIzy,
  rowF2 0x86 .stx .zp 3 false .stxZp,
  rowF2 0x96 .stx .zpy 4 false .stxZpy,
  rowF3 0x8E .stx .abs 4 false .stxAbs,
  rowF2 0x84 .sty .zp 3 false .styZp,
  rowF2 0x94 .sty .zpx 4 false .styZpx,
  rowF3 0x8C .sty .abs 4 false .styAbs]

/-- R75, the mnemonics of spec/41_load_store_transfer.md: opcode, mode, base cycles, page-cross flag. -/
def opcodesTransfer : List Row := [
  rowF1 0xAA .tax .imp 2 .tax,
  rowF1 0xA8 .tay .imp 2 .tay,
  rowF1 0x8A .txa .imp 2 .txa,
  rowF1 0x98 .tya .imp 2 .tya,
  rowF1 0xBA .tsx .imp 2 .tsx,
  rowF1 0x9A .txs .imp 2 .txs]

/-- R75, the mnemonics of spec/42_arithmetic.md: opcode, mode, base cycles, page-cross flag. -/
def opcodesArithmetic : List Row := [
  rowF2 0x69 .adc .imm 2 false .adcImm,
  rowF2 0x65 .adc .zp 3 false .adcZp,
  rowF2 0x75 .adc .zpx 4 false .adcZpx,
  rowF3 0x6D .adc .abs 4 false .adcAbs,
  rowF3 0x7D .adc .abx 4 true .adcAbx,
  rowF3 0x79 .adc .aby 4 true .adcAby,
  rowF2 0x61 .adc .izx 6 false .adcIzx,
  rowF2 0x71 .adc .izy 5 true .adcIzy,
  rowF2 0xE9 .sbc .imm 2 false .sbcImm,
  rowF2 0xE5 .sbc .zp 3 false .sbcZp,
  rowF2 0xF5 .sbc .zpx 4 false .sbcZpx,
  rowF3 0xED .sbc .abs 4 false .sbcAbs,
  rowF3 0xFD .sbc .abx 4 true .sbcAbx,
  rowF3 0xF9 .sbc .aby 4 true .sbcAby,
  rowF2 0xE1 .sbc .izx 6 false .sbcIzx,
  rowF2 0xF1 .sbc .izy 5 true .sbcIzy]

/-- R75, the mnemonics of spec/43_incdec.md: opcode, mode, base cycles, page-cross flag. -/
def opcodesIncDec : List Row := [
  rowF2 0xE6 .inc .zp 5 false .incZp,
  rowF2 0xF6 .inc .zpx 6 false .incZpx,
  rowF3 0xEE .inc .abs 6 false .incAbs,
  rowF3 0xFE .inc .abx 7 false .incAbx,
  rowF1 0xE8 .inx .imp 2 .inx,
  rowF1 0xC8 .iny .imp 2 .iny,
  rowF2 0xC6 .dec .zp 5 false .decZp,
  rowF2 0xD6 .dec .zpx 6 false .decZpx,
  rowF3 0xCE .dec .abs 6 false .decAbs,
  rowF3 0xDE .dec .abx 7 false .decAbx,
  rowF1 0xCA .dex .imp 2 .dex,
  rowF1 0x88 .dey .imp 2 .dey]

/-- R75, the mnemonics of spec/44_shift_rotate.md: opcode, mode, base cycles, page-cross flag. -/
def opcodesShiftRotate : List Row := [
  rowF1 0x0A .asl .acc 2 .aslAcc,
  rowF2 0x06 .asl .zp 5 false .aslZp,
  rowF2 0x16 .asl .zpx 6 false .aslZpx,
  rowF3 0x0E .asl .abs 6 false .aslAbs,
  rowF3 0x1E .asl .abx 7 false .aslAbx,
  rowF1 0x4A .lsr .acc 2 .lsrAcc,
  rowF2 0x46 .lsr .zp 5 false .lsrZp,
  rowF2 0x56 .lsr .zpx 6 false .lsrZpx,
  rowF3 0x4E .lsr .abs 6 false .lsrAbs,
  rowF3 0x5E .lsr .abx 7 false .lsrAbx,
  rowF1 0x2A .rol .acc 2 .rolAcc,
  rowF2 0x26 .rol .zp 5 false .rolZp,
  rowF2 0x36 .rol .zpx 6 false .rolZpx,
  rowF3 0x2E .rol .abs 6 false .rolAbs,
  rowF3 0x3E .rol .abx 7 false .rolAbx,
  rowF1 0x6A .ror .acc 2 .rorAcc,
  rowF2 0x66 .ror .zp 5 false .rorZp,
  rowF2 0x76 .ror .zpx 6 false .rorZpx,
  rowF3 0x6E .ror .abs 6 false .rorAbs,
  rowF3 0x7E .ror .abx 7 false .rorAbx]

/-- R75, the mnemonics of spec/45_logical.md: opcode, mode, base cycles, page-cross flag. -/
def opcodesLogical : List Row := [
  rowF2 0x29 .and .imm 2 false .andImm,
  rowF2 0x25 .and .zp 3 false .andZp,
  rowF2 0x35 .and .zpx 4 false .andZpx,
  rowF3 0x2D .and .abs 4 false .andAbs,
  rowF3 0x3D .and .abx 4 true .andAbx,
  rowF3 0x39 .and .aby 4 true .andAby,
  rowF2 0x21 .and .izx 6 false .andIzx,
  rowF2 0x31 .and .izy 5 true .andIzy,
  rowF2 0x09 .ora .imm 2 false .oraImm,
  rowF2 0x05 .ora .zp 3 false .oraZp,
  rowF2 0x15 .ora .zpx 4 false .oraZpx,
  rowF3 0x0D .ora .abs 4 false .oraAbs,
  rowF3 0x1D .ora .abx 4 true .oraAbx,
  rowF3 0x19 .ora .aby 4 true .oraAby,
  rowF2 0x01 .ora .izx 6 false .oraIzx,
  rowF2 0x11 .ora .izy 5 true .oraIzy,
  rowF2 0x49 .eor .imm 2 false .eorImm,
  rowF2 0x45 .eor .zp 3 false .eorZp,
  rowF2 0x55 .eor .zpx 4 false .eorZpx,
  rowF3 0x4D .eor .abs 4 false .eorAbs,
  rowF3 0x5D .eor .abx 4 true .eorAbx,
  rowF3 0x59 .eor .aby 4 true .eorAby,
  rowF2 0x41 .eor .izx 6 false .eorIzx,
  rowF2 0x51 .eor .izy 5 true .eorIzy,
  rowF2 0x24 .bit .zp 3 false .bitZp,
  rowF3 0x2C .bit .abs 4 false .bitAbs]

/-- R75, the mnemonics of spec/46_compare.md: opcode, mode, base cycles, page-cross flag. -/
def opcodesCompare : List Row := [
  rowF2 0xC9 .cmp .imm 2 false .cmpImm,
  rowF2 0xC5 .cmp .zp 3 false .cmpZp,
  rowF2 0xD5 .cmp .zpx 4 false .cmpZpx,
  rowF3 0xCD .cmp .abs 4 false .cmpAbs,
  rowF3 0xDD .cmp .abx 4 true .cmpAbx,
  rowF3 0xD9 .cmp .aby 4 true .cmpAby,
  rowF2 0xC1 .cmp .izx 6 false .cmpIzx,
  rowF2 0xD1 .cmp .izy 5 true .cmpIzy,
  rowF2 0xE0 .cpx .imm 2 false .cpxImm,
  rowF2 0xE4 .cpx .zp 3 false .cpxZp,
  rowF3 0xEC .cpx .abs 4 false .cpxAbs,
  rowF2 0xC0 .cpy .imm 2 false .cpyImm,
  rowF2 0xC4 .cpy .zp 3 false .cpyZp,
  rowF3 0xCC .cpy .abs 4 false .cpyAbs]

/-- R75, the mnemonics of spec/47_branch.md: opcode, mode, base cycles, page-cross flag. -/
def opcodesBranch : List Row := [
  rowF2 0x90 .bcc .rel 2 false .bcc,
  rowF2 0xB0 .bcs .rel 2 false .bcs,
  rowF2 0xF0 .beq .rel 2 false .beq,
  rowF2 0xD0 .bne .rel 2 false .bne,
  rowF2 0x30 .bmi .rel 2 false .bmi,
  rowF2 0x10 .bpl .rel 2 false .bpl,
  rowF2 0x50 .bvc .rel 2 false .bvc,
  rowF2 0x70 .bvs .rel 2 false .bvs]

/-- R75, the mnemonics of spec/48_jump_call.md: opcode, mode, base cycles, page-cross flag. -/
def opcodesJumpCall : List Row := [
  rowF3 0x4C .jmp .abs 3 false .jmpAbs,
  rowF3 0x6C .jmp .ind 5 false .jmpInd,
  rowF3 0x20 .jsr .abs 6 false .jsr,
  rowF1 0x60 .rts .imp 6 .rts,
  rowF1 0x40 .rti .imp 6 .rti]

/-- R75, the mnemonics of spec/49_stack_flags_system.md: opcode, mode, base cycles, page-cross flag. -/
def opcodesStackFlagsSystem : List Row := [
  rowF1 0x48 .pha .imp 3 .pha,
  rowF1 0x08 .php .imp 3 .php,
  rowF1 0x68 .pla .imp 4 .pla,
  rowF1 0x28 .plp .imp 4 .plp,
  rowF1 0x18 .clc .imp 2 .clc,
  rowF1 0x38 .sec .imp 2 .sec,
  rowF1 0x58 .cli .imp 2 .cli,
  rowF1 0x78 .sei .imp 2 .sei,
  rowF1 0xD8 .cld .imp 2 .cld,
  rowF1 0xF8 .sed .imp 2 .sed,
  rowF1 0xB8 .clv .imp 2 .clv,
  rowF1 0xEA .nop .imp 2 .nop,
  rowF1 0x00 .brk .imp 7 .brk]

/-- The opcode map R75: the 151 official opcodes. -/
def opcodeTable : List Row :=
  opcodesLoadStore ++ opcodesTransfer ++ opcodesArithmetic ++ opcodesIncDec ++ opcodesShiftRotate ++
  opcodesLogical ++ opcodesCompare ++ opcodesBranch ++ opcodesJumpCall ++ opcodesStackFlagsSystem

/-- The table lookup of R70: by the opcode byte alone. -/
def lookup (op : Byte) : Option Row := opcodeTable.find? (fun r => r.opcode == op)

/-- `Decode(op)` of R74: the descriptor of an official opcode, none for `Illegal`. -/
def descriptor (op : Byte) : Option Descriptor := (lookup op).map Row.desc

/-- The operand byte width the opcode selects; an illegal opcode fetches no operand byte (R77, R79). -/
def operandWidth (op : Byte) : Nat := ((descriptor op).map (fun d => d.mode.width)).getD 0

/-- The instruction whose opcode byte is `op`, the next two bytes in memory being `b1` and `b2` (R71); a format that is
shorter ignores the bytes it does not have. Total: an opcode with no descriptor is `illegal` (R74, R77). -/
def instrOf (op b1 b2 : Byte) : Instr :=
  match lookup op with
  | none => .illegal op
  | some r =>
    match r.form with
    | .f1 i => i
    | .f2 mk => mk b1
    | .f3 mk => mk (word b2 b1)

/-- Why a list of bytes is no instruction: it is empty, or it ends before the operand bytes of its opcode do. -/
inductive DecodeReject where
  | noBytes
  | operandMissing (op : Byte)
deriving DecidableEq, Repr

/-- Decoding from a list of bytes: the instruction and the bytes after it. -/
def decode (bytes : List Byte) : Except DecodeReject (Instr × List Byte) :=
  match bytes with
  | [] => .error .noBytes
  | op :: rest =>
    if rest.length < operandWidth op then .error (.operandMissing op)
    else .ok (instrOf op (rest.getD 0 0) (rest.getD 1 0), rest.drop (operandWidth op))

/-- The bytes of an instruction (R71, R75, R80): the opcode byte, then the operand, low byte first (R47). -/
def encode : Instr → List Byte
  | .ldaImm v => [0xA9, v]
  | .ldaZp op8 => [0xA5, op8]
  | .ldaZpx op8 => [0xB5, op8]
  | .ldaAbs addr => [0xAD, loByte addr, hiByte addr]
  | .ldaAbx addr => [0xBD, loByte addr, hiByte addr]
  | .ldaAby addr => [0xB9, loByte addr, hiByte addr]
  | .ldaIzx op8 => [0xA1, op8]
  | .ldaIzy op8 => [0xB1, op8]
  | .ldxImm v => [0xA2, v]
  | .ldxZp op8 => [0xA6, op8]
  | .ldxZpy op8 => [0xB6, op8]
  | .ldxAbs addr => [0xAE, loByte addr, hiByte addr]
  | .ldxAby addr => [0xBE, loByte addr, hiByte addr]
  | .ldyImm v => [0xA0, v]
  | .ldyZp op8 => [0xA4, op8]
  | .ldyZpx op8 => [0xB4, op8]
  | .ldyAbs addr => [0xAC, loByte addr, hiByte addr]
  | .ldyAbx addr => [0xBC, loByte addr, hiByte addr]
  | .staZp op8 => [0x85, op8]
  | .staZpx op8 => [0x95, op8]
  | .staAbs addr => [0x8D, loByte addr, hiByte addr]
  | .staAbx addr => [0x9D, loByte addr, hiByte addr]
  | .staAby addr => [0x99, loByte addr, hiByte addr]
  | .staIzx op8 => [0x81, op8]
  | .staIzy op8 => [0x91, op8]
  | .stxZp op8 => [0x86, op8]
  | .stxZpy op8 => [0x96, op8]
  | .stxAbs addr => [0x8E, loByte addr, hiByte addr]
  | .styZp op8 => [0x84, op8]
  | .styZpx op8 => [0x94, op8]
  | .styAbs addr => [0x8C, loByte addr, hiByte addr]
  | .tax => [0xAA]
  | .tay => [0xA8]
  | .txa => [0x8A]
  | .tya => [0x98]
  | .tsx => [0xBA]
  | .txs => [0x9A]
  | .adcImm v => [0x69, v]
  | .adcZp op8 => [0x65, op8]
  | .adcZpx op8 => [0x75, op8]
  | .adcAbs addr => [0x6D, loByte addr, hiByte addr]
  | .adcAbx addr => [0x7D, loByte addr, hiByte addr]
  | .adcAby addr => [0x79, loByte addr, hiByte addr]
  | .adcIzx op8 => [0x61, op8]
  | .adcIzy op8 => [0x71, op8]
  | .sbcImm v => [0xE9, v]
  | .sbcZp op8 => [0xE5, op8]
  | .sbcZpx op8 => [0xF5, op8]
  | .sbcAbs addr => [0xED, loByte addr, hiByte addr]
  | .sbcAbx addr => [0xFD, loByte addr, hiByte addr]
  | .sbcAby addr => [0xF9, loByte addr, hiByte addr]
  | .sbcIzx op8 => [0xE1, op8]
  | .sbcIzy op8 => [0xF1, op8]
  | .incZp op8 => [0xE6, op8]
  | .incZpx op8 => [0xF6, op8]
  | .incAbs addr => [0xEE, loByte addr, hiByte addr]
  | .incAbx addr => [0xFE, loByte addr, hiByte addr]
  | .inx => [0xE8]
  | .iny => [0xC8]
  | .decZp op8 => [0xC6, op8]
  | .decZpx op8 => [0xD6, op8]
  | .decAbs addr => [0xCE, loByte addr, hiByte addr]
  | .decAbx addr => [0xDE, loByte addr, hiByte addr]
  | .dex => [0xCA]
  | .dey => [0x88]
  | .aslAcc => [0x0A]
  | .aslZp op8 => [0x06, op8]
  | .aslZpx op8 => [0x16, op8]
  | .aslAbs addr => [0x0E, loByte addr, hiByte addr]
  | .aslAbx addr => [0x1E, loByte addr, hiByte addr]
  | .lsrAcc => [0x4A]
  | .lsrZp op8 => [0x46, op8]
  | .lsrZpx op8 => [0x56, op8]
  | .lsrAbs addr => [0x4E, loByte addr, hiByte addr]
  | .lsrAbx addr => [0x5E, loByte addr, hiByte addr]
  | .rolAcc => [0x2A]
  | .rolZp op8 => [0x26, op8]
  | .rolZpx op8 => [0x36, op8]
  | .rolAbs addr => [0x2E, loByte addr, hiByte addr]
  | .rolAbx addr => [0x3E, loByte addr, hiByte addr]
  | .rorAcc => [0x6A]
  | .rorZp op8 => [0x66, op8]
  | .rorZpx op8 => [0x76, op8]
  | .rorAbs addr => [0x6E, loByte addr, hiByte addr]
  | .rorAbx addr => [0x7E, loByte addr, hiByte addr]
  | .andImm v => [0x29, v]
  | .andZp op8 => [0x25, op8]
  | .andZpx op8 => [0x35, op8]
  | .andAbs addr => [0x2D, loByte addr, hiByte addr]
  | .andAbx addr => [0x3D, loByte addr, hiByte addr]
  | .andAby addr => [0x39, loByte addr, hiByte addr]
  | .andIzx op8 => [0x21, op8]
  | .andIzy op8 => [0x31, op8]
  | .oraImm v => [0x09, v]
  | .oraZp op8 => [0x05, op8]
  | .oraZpx op8 => [0x15, op8]
  | .oraAbs addr => [0x0D, loByte addr, hiByte addr]
  | .oraAbx addr => [0x1D, loByte addr, hiByte addr]
  | .oraAby addr => [0x19, loByte addr, hiByte addr]
  | .oraIzx op8 => [0x01, op8]
  | .oraIzy op8 => [0x11, op8]
  | .eorImm v => [0x49, v]
  | .eorZp op8 => [0x45, op8]
  | .eorZpx op8 => [0x55, op8]
  | .eorAbs addr => [0x4D, loByte addr, hiByte addr]
  | .eorAbx addr => [0x5D, loByte addr, hiByte addr]
  | .eorAby addr => [0x59, loByte addr, hiByte addr]
  | .eorIzx op8 => [0x41, op8]
  | .eorIzy op8 => [0x51, op8]
  | .bitZp op8 => [0x24, op8]
  | .bitAbs addr => [0x2C, loByte addr, hiByte addr]
  | .cmpImm v => [0xC9, v]
  | .cmpZp op8 => [0xC5, op8]
  | .cmpZpx op8 => [0xD5, op8]
  | .cmpAbs addr => [0xCD, loByte addr, hiByte addr]
  | .cmpAbx addr => [0xDD, loByte addr, hiByte addr]
  | .cmpAby addr => [0xD9, loByte addr, hiByte addr]
  | .cmpIzx op8 => [0xC1, op8]
  | .cmpIzy op8 => [0xD1, op8]
  | .cpxImm v => [0xE0, v]
  | .cpxZp op8 => [0xE4, op8]
  | .cpxAbs addr => [0xEC, loByte addr, hiByte addr]
  | .cpyImm v => [0xC0, v]
  | .cpyZp op8 => [0xC4, op8]
  | .cpyAbs addr => [0xCC, loByte addr, hiByte addr]
  | .bcc op8 => [0x90, op8]
  | .bcs op8 => [0xB0, op8]
  | .beq op8 => [0xF0, op8]
  | .bne op8 => [0xD0, op8]
  | .bmi op8 => [0x30, op8]
  | .bpl op8 => [0x10, op8]
  | .bvc op8 => [0x50, op8]
  | .bvs op8 => [0x70, op8]
  | .jmpAbs addr => [0x4C, loByte addr, hiByte addr]
  | .jmpInd addr => [0x6C, loByte addr, hiByte addr]
  | .jsr addr => [0x20, loByte addr, hiByte addr]
  | .rts => [0x60]
  | .rti => [0x40]
  | .pha => [0x48]
  | .php => [0x08]
  | .pla => [0x68]
  | .plp => [0x28]
  | .clc => [0x18]
  | .sec => [0x38]
  | .cli => [0x58]
  | .sei => [0x78]
  | .cld => [0xD8]
  | .sed => [0xF8]
  | .clv => [0xB8]
  | .nop => [0xEA]
  | .brk => [0x00]
  | .illegal op => [op]

/-- The mnemonic of an instruction, as spec/opcode_table.json names its row. -/
def Instr.mnemonic : Instr → Mnemonic
  | .ldaImm _ | .ldaZp _ | .ldaZpx _ | .ldaAbs _ | .ldaAbx _ | .ldaAby _ | .ldaIzx _ | .ldaIzy _ => .lda
  | .ldxImm _ | .ldxZp _ | .ldxZpy _ | .ldxAbs _ | .ldxAby _ => .ldx
  | .ldyImm _ | .ldyZp _ | .ldyZpx _ | .ldyAbs _ | .ldyAbx _ => .ldy
  | .staZp _ | .staZpx _ | .staAbs _ | .staAbx _ | .staAby _ | .staIzx _ | .staIzy _ => .sta
  | .stxZp _ | .stxZpy _ | .stxAbs _ => .stx
  | .styZp _ | .styZpx _ | .styAbs _ => .sty
  | .tax => .tax
  | .tay => .tay
  | .txa => .txa
  | .tya => .tya
  | .tsx => .tsx
  | .txs => .txs
  | .adcImm _ | .adcZp _ | .adcZpx _ | .adcAbs _ | .adcAbx _ | .adcAby _ | .adcIzx _ | .adcIzy _ => .adc
  | .sbcImm _ | .sbcZp _ | .sbcZpx _ | .sbcAbs _ | .sbcAbx _ | .sbcAby _ | .sbcIzx _ | .sbcIzy _ => .sbc
  | .incZp _ | .incZpx _ | .incAbs _ | .incAbx _ => .inc
  | .inx => .inx
  | .iny => .iny
  | .decZp _ | .decZpx _ | .decAbs _ | .decAbx _ => .dec
  | .dex => .dex
  | .dey => .dey
  | .aslAcc | .aslZp _ | .aslZpx _ | .aslAbs _ | .aslAbx _ => .asl
  | .lsrAcc | .lsrZp _ | .lsrZpx _ | .lsrAbs _ | .lsrAbx _ => .lsr
  | .rolAcc | .rolZp _ | .rolZpx _ | .rolAbs _ | .rolAbx _ => .rol
  | .rorAcc | .rorZp _ | .rorZpx _ | .rorAbs _ | .rorAbx _ => .ror
  | .andImm _ | .andZp _ | .andZpx _ | .andAbs _ | .andAbx _ | .andAby _ | .andIzx _ | .andIzy _ => .and
  | .oraImm _ | .oraZp _ | .oraZpx _ | .oraAbs _ | .oraAbx _ | .oraAby _ | .oraIzx _ | .oraIzy _ => .ora
  | .eorImm _ | .eorZp _ | .eorZpx _ | .eorAbs _ | .eorAbx _ | .eorAby _ | .eorIzx _ | .eorIzy _ => .eor
  | .bitZp _ | .bitAbs _ => .bit
  | .cmpImm _ | .cmpZp _ | .cmpZpx _ | .cmpAbs _ | .cmpAbx _ | .cmpAby _ | .cmpIzx _ | .cmpIzy _ => .cmp
  | .cpxImm _ | .cpxZp _ | .cpxAbs _ => .cpx
  | .cpyImm _ | .cpyZp _ | .cpyAbs _ => .cpy
  | .bcc _ => .bcc
  | .bcs _ => .bcs
  | .beq _ => .beq
  | .bne _ => .bne
  | .bmi _ => .bmi
  | .bpl _ => .bpl
  | .bvc _ => .bvc
  | .bvs _ => .bvs
  | .jmpAbs _ | .jmpInd _ => .jmp
  | .jsr _ => .jsr
  | .rts => .rts
  | .rti => .rti
  | .pha => .pha
  | .php => .php
  | .pla => .pla
  | .plp => .plp
  | .clc => .clc
  | .sec => .sec
  | .cli => .cli
  | .sei => .sei
  | .cld => .cld
  | .sed => .sed
  | .clv => .clv
  | .nop => .nop
  | .brk => .brk
  | .illegal _ => .illegal

/-- The addressing mode and operand bytes of an instruction (R73). An illegal opcode has no operand (R77). -/
def Instr.operand : Instr → Operand
  | .ldaImm v => .imm v
  | .ldaZp op8 => .zp op8
  | .ldaZpx op8 => .zpx op8
  | .ldaAbs addr => .abs addr
  | .ldaAbx addr => .abx addr
  | .ldaAby addr => .aby addr
  | .ldaIzx op8 => .izx op8
  | .ldaIzy op8 => .izy op8
  | .ldxImm v => .imm v
  | .ldxZp op8 => .zp op8
  | .ldxZpy op8 => .zpy op8
  | .ldxAbs addr => .abs addr
  | .ldxAby addr => .aby addr
  | .ldyImm v => .imm v
  | .ldyZp op8 => .zp op8
  | .ldyZpx op8 => .zpx op8
  | .ldyAbs addr => .abs addr
  | .ldyAbx addr => .abx addr
  | .staZp op8 => .zp op8
  | .staZpx op8 => .zpx op8
  | .staAbs addr => .abs addr
  | .staAbx addr => .abx addr
  | .staAby addr => .aby addr
  | .staIzx op8 => .izx op8
  | .staIzy op8 => .izy op8
  | .stxZp op8 => .zp op8
  | .stxZpy op8 => .zpy op8
  | .stxAbs addr => .abs addr
  | .styZp op8 => .zp op8
  | .styZpx op8 => .zpx op8
  | .styAbs addr => .abs addr
  | .tax => .imp
  | .tay => .imp
  | .txa => .imp
  | .tya => .imp
  | .tsx => .imp
  | .txs => .imp
  | .adcImm v => .imm v
  | .adcZp op8 => .zp op8
  | .adcZpx op8 => .zpx op8
  | .adcAbs addr => .abs addr
  | .adcAbx addr => .abx addr
  | .adcAby addr => .aby addr
  | .adcIzx op8 => .izx op8
  | .adcIzy op8 => .izy op8
  | .sbcImm v => .imm v
  | .sbcZp op8 => .zp op8
  | .sbcZpx op8 => .zpx op8
  | .sbcAbs addr => .abs addr
  | .sbcAbx addr => .abx addr
  | .sbcAby addr => .aby addr
  | .sbcIzx op8 => .izx op8
  | .sbcIzy op8 => .izy op8
  | .incZp op8 => .zp op8
  | .incZpx op8 => .zpx op8
  | .incAbs addr => .abs addr
  | .incAbx addr => .abx addr
  | .inx => .imp
  | .iny => .imp
  | .decZp op8 => .zp op8
  | .decZpx op8 => .zpx op8
  | .decAbs addr => .abs addr
  | .decAbx addr => .abx addr
  | .dex => .imp
  | .dey => .imp
  | .aslAcc => .acc
  | .aslZp op8 => .zp op8
  | .aslZpx op8 => .zpx op8
  | .aslAbs addr => .abs addr
  | .aslAbx addr => .abx addr
  | .lsrAcc => .acc
  | .lsrZp op8 => .zp op8
  | .lsrZpx op8 => .zpx op8
  | .lsrAbs addr => .abs addr
  | .lsrAbx addr => .abx addr
  | .rolAcc => .acc
  | .rolZp op8 => .zp op8
  | .rolZpx op8 => .zpx op8
  | .rolAbs addr => .abs addr
  | .rolAbx addr => .abx addr
  | .rorAcc => .acc
  | .rorZp op8 => .zp op8
  | .rorZpx op8 => .zpx op8
  | .rorAbs addr => .abs addr
  | .rorAbx addr => .abx addr
  | .andImm v => .imm v
  | .andZp op8 => .zp op8
  | .andZpx op8 => .zpx op8
  | .andAbs addr => .abs addr
  | .andAbx addr => .abx addr
  | .andAby addr => .aby addr
  | .andIzx op8 => .izx op8
  | .andIzy op8 => .izy op8
  | .oraImm v => .imm v
  | .oraZp op8 => .zp op8
  | .oraZpx op8 => .zpx op8
  | .oraAbs addr => .abs addr
  | .oraAbx addr => .abx addr
  | .oraAby addr => .aby addr
  | .oraIzx op8 => .izx op8
  | .oraIzy op8 => .izy op8
  | .eorImm v => .imm v
  | .eorZp op8 => .zp op8
  | .eorZpx op8 => .zpx op8
  | .eorAbs addr => .abs addr
  | .eorAbx addr => .abx addr
  | .eorAby addr => .aby addr
  | .eorIzx op8 => .izx op8
  | .eorIzy op8 => .izy op8
  | .bitZp op8 => .zp op8
  | .bitAbs addr => .abs addr
  | .cmpImm v => .imm v
  | .cmpZp op8 => .zp op8
  | .cmpZpx op8 => .zpx op8
  | .cmpAbs addr => .abs addr
  | .cmpAbx addr => .abx addr
  | .cmpAby addr => .aby addr
  | .cmpIzx op8 => .izx op8
  | .cmpIzy op8 => .izy op8
  | .cpxImm v => .imm v
  | .cpxZp op8 => .zp op8
  | .cpxAbs addr => .abs addr
  | .cpyImm v => .imm v
  | .cpyZp op8 => .zp op8
  | .cpyAbs addr => .abs addr
  | .bcc op8 => .rel op8
  | .bcs op8 => .rel op8
  | .beq op8 => .rel op8
  | .bne op8 => .rel op8
  | .bmi op8 => .rel op8
  | .bpl op8 => .rel op8
  | .bvc op8 => .rel op8
  | .bvs op8 => .rel op8
  | .jmpAbs addr => .abs addr
  | .jmpInd addr => .ind addr
  | .jsr addr => .abs addr
  | .rts => .imp
  | .rti => .imp
  | .pha => .imp
  | .php => .imp
  | .pla => .imp
  | .plp => .imp
  | .clc => .imp
  | .sec => .imp
  | .cli => .imp
  | .sei => .imp
  | .cld => .imp
  | .sed => .imp
  | .clv => .imp
  | .nop => .imp
  | .brk => .imp
  | .illegal _ => .imp

/-- The opcode byte of an instruction. -/
def Instr.opcode (i : Instr) : Byte := (encode i).headD 0

/-- Byte `k` of an instruction numbered as spec/opcode_table.json numbers bits: bit 0 is the least significant bit of the
first byte. -/
def tableByte (nbits w k : Nat) : Byte := BitVec.ofNat 8 ((w % 2 ^ nbits) / 2 ^ (8 * k))

/-- What the decoder reads from an instruction whose first `nbits` bits are `w` and whose other bits, up to the three
bytes of the longest instruction, are 0. -/
def decodeTableWord (nbits w : Nat) : Option Instr :=
  match decode [tableByte nbits w 0, tableByte nbits w 1, tableByte nbits w 2] with
  | .ok (i, _) => some i
  | .error _ => none

end Sys2Proof
end

