-- ==== Sys2Proof/Machine/Flags.lean ====
section
/-! DEFINITION. The status register as a byte (spec/10_state.md R16 to R20) and every flag computation of the
`6502_alu`: the adder (spec/42_arithmetic.md R130) and the compare (spec/46_compare.md R170). -/

namespace Sys2Proof.Machine

/-- The eight named bits of P (R16). -/
inductive Flag where
  | carry | zero | irqDisable | decimal | brk | unused | overflow | negative
deriving DecidableEq, Repr

/-- The bit numbers of R16. -/
def Flag.bit : Flag → Nat
  | .carry => 0
  | .zero => 1
  | .irqDisable => 2
  | .decimal => 3
  | .brk => 4
  | .unused => 5
  | .overflow => 6
  | .negative => 7

/-- One bit of P (R7, R16). -/
def getFlag (f : Flag) (p : Byte) : Bool := p.getLsbD f.bit

/-- P with bit `k` written. -/
def writeBit (k : Nat) (b : Bool) (p : Byte) : Byte :=
  if b then p ||| (1#8 <<< k) else p &&& ~~~(1#8 <<< k)

/-- `set(flag, bool)` of the status register: asked to clear Unused or to set Break, it does nothing (R18 and
spec/90_conflicts.md C6; log entry 6). -/
def setFlag (f : Flag) (b : Bool) (p : Byte) : Byte :=
  if (f = .unused ∧ b = false) ∨ (f = .brk ∧ b = true) then p else writeBit f.bit b p

/-- `SetZN(v)` (R19). -/
def setZN (v p : Byte) : Byte := setFlag .negative (v.getLsbD 7) (setFlag .zero (v == 0#8) p)

/-- `PushByteSoftware(P)` (R20): B = 1, U = 1. -/
def pushByteSoftware (p : Byte) : Byte := p ||| 0x30#8

/-- `PushByteInterrupt(P)` (R20): B = 0, U = 1. -/
def pushByteInterrupt (p : Byte) : Byte := (p &&& 0xEF#8) ||| 0x20#8

/-- `FromByte(b)` (R20): B forced to 0, U forced to 1, the six flags copied. -/
def fromByte (b : Byte) : Byte := (b &&& 0xEF#8) ||| 0x20#8

/-- What the adder returns (R130): result, carry out, signed overflow. -/
structure Sum where
  r : Byte
  cout : Bool
  vout : Bool
deriving DecidableEq, Repr

/-- `AddCore(a, m, c)` (R130): the exact sum in naturals, its low byte, its bit 8, and `((a ^ r) & (m ^ r))[7]`. -/
def addCore (a m : Byte) (c : Bool) : Sum :=
  let s := a.toNat + m.toNat + c.toNat
  let r := BitVec.ofNat 8 s
  ⟨r, decide (s > 255), ((a ^^^ r) &&& (m ^^^ r)).getLsbD 7⟩

/-- `Compare(reg, m)` (R170), as a function of P: C is "no borrow" on the unsigned values, Z equality, N bit 7 of the
difference. -/
def compare (reg m p : Byte) : Byte :=
  setFlag .negative ((reg - m).getLsbD 7)
    (setFlag .zero (reg == m) (setFlag .carry (decide (reg.toNat ≥ m.toNat)) p))

end Sys2Proof.Machine
end

