-- ==== Sys2Proof/Config.lean ====
section
/-! DEFINITION. What the spec fixes for the machine (R4), the two parameters it leaves OPEN (R5), and the free values of
the interval between `new` and `reset` (R28, R252). An `opaque` constant has no value a proof can see. -/

namespace Sys2Proof

/-- `STACK_BASE` 0x0100 (R4): the page the stack pointer is an offset into. -/
def Config.stackPage : Byte := 0x01#8

/-- `NMI_VECTOR` (R4, R227). -/
def Config.nmiVector : Addr := 0xFFFA#16

/-- `RESET_VECTOR` (R4, R227). -/
def Config.resetVector : Addr := 0xFFFC#16

/-- `IRQ_VECTOR` (R4, R227). -/
def Config.irqVector : Addr := 0xFFFE#16

/-- `SP_RESET` (R4, R28). -/
def Config.spReset : Byte := 0xFD#8

/-- `P_RESET` (R4, R28): I = 1, U = 1, all others 0. -/
def Config.pReset : Byte := 0x24#8

/-- `AXY_RESET` (R4, R28). -/
def Config.axyReset : Byte := 0x00#8

/-- `INTERRUPT_ENTRY_CYCLES` (R4, R262). -/
def Config.interruptEntryCycles : Nat := 7

/-- `MEM_SIZE` (R4, R40). -/
def Config.memSize : Nat := 65536

/-- What a byte of memory that nothing has loaded or written reads as. DESIGN CHOICE (log entry 1, unsafe): the default
of the OPEN parameter `INITIAL_MEMORY` (R5, R44). Any other initial content is a memory the machine is constructed with. -/
def Config.initialByte : Byte := 0x00#8

/-- The OPEN parameter `JMP_IND_PAGE_WRAP` (R5, R100, R191). DESIGN CHOICE (log entry 2, safe): no value is chosen. -/
opaque Config.jmpIndPageWrap : Bool

/-- The unspecified byte registers after `new` (R28): free values, one for each number (log entry 3, safe). -/
opaque Config.unspecifiedByte : Nat → Byte

/-- The unspecified PC after `new` (R28): a free value (log entry 3, safe). -/
opaque Config.unspecifiedPc : Addr

/-- The unspecified cycle counter after `new` (R28): a free value (log entry 3, safe). -/
opaque Config.unspecifiedCycles : Nat

end Sys2Proof
end

