-- ==== Sys2Proof/Machine/State.lean ====
section
/-! DEFINITION. All the state the spec gives the machine (spec/10_state.md R10 to R29), the reasons a step or a host call can
stop, and the machine right after reset (R28, R250). -/

namespace Sys2Proof.Machine

/-- `run_state` (R22, R230). -/
inductive RunState where
  /-- constructed by `new`, not yet reset -/
  | unreset
  /-- right after `reset` -/
  | reset
  /-- after a step that executed an instruction other than BRK -/
  | running
  /-- after BRK or an illegal opcode: a step does nothing -/
  | halted
  /-- after an interrupt entry that was taken, until the next step -/
  | interrupted
deriving DecidableEq, Repr

/-- `halt_reason` (R23), where there is one. -/
inductive HaltReason where
  /-- the clean stop (R222) -/
  | brk
  /-- the one synchronous exception (R221): the opcode byte and the address it was fetched from -/
  | illegalOpcode (op : Byte) (addr : Addr)
deriving DecidableEq, Repr

/-- The bytes of memory that differ from `Config.initialByte`, by rising address (R24, R40). -/
abbrev Memory := List Host.Cell

/-- The machine (R10 to R24). Nothing else is state (R25, R26). -/
structure State where
  /-- accumulator (R10) -/
  a : Byte
  /-- index register X (R11) -/
  x : Byte
  /-- index register Y (R12) -/
  y : Byte
  /-- stack pointer, an offset in page 1 (R13) -/
  sp : Byte
  /-- program counter (R14) -/
  pc : Addr
  /-- status register, N V U B D I Z C from bit 7 down (R16) -/
  p : Byte
  /-- cycle counter; it never wraps (R21) -/
  cycles : Nat
  /-- run state (R22) -/
  runState : RunState
  /-- halt reason, none unless halted (R23) -/
  haltReason : Option HaltReason
  /-- the 65,536 bytes of memory (R24) -/
  mem : Memory
deriving DecidableEq, Repr

/-- Why the machine stops with a fault. There is no such reason: no operation of this hardware faults (R42, R43, R49, R220,
R223); the exception IllegalOpcode and the stop Break are states the machine goes on from (R221, R222). -/
inductive Fault where
deriving DecidableEq, Repr

/-- Why a step or a host call is given no meaning. -/
inductive Refusal where
  /-- An instruction that has no meaning yet; raised by no arm of `exec`. Safe. -/
  | notModelled (mnemonic : String)
  /-- `step`, `run`, `trigger_irq` or `trigger_nmi` before the first `reset` (R22, R230, R252): raised by
  `stepBody` and by the host calls, never by an instruction. Safe: the spec gives the call no meaning. -/
  | beforeReset
  /-- `load` of more than 65,536 bytes (R45): raised by the host call `load`. Safe: the spec refuses it. -/
  | imageTooLong (bytes : Nat)
deriving DecidableEq, Repr

/-- The machine right after reset (R28, R250) with nothing loaded: PC is the word at 0xFFFC/0xFFFD, both bytes of which
hold `Config.initialByte` (log entries 1, 4, 5). -/
def State.reset : State where
  a := Config.axyReset
  x := Config.axyReset
  y := Config.axyReset
  sp := Config.spReset
  pc := word Config.initialByte Config.initialByte
  p := Config.pReset
  cycles := 0
  runState := .reset
  haltReason := none
  mem := []

end Sys2Proof.Machine
end

