-- ==== Sys2Proof/Machine/Ops.lean ====
section
/-! DEFINITION. The named operations over memory and registers (spec/00_scope.md R7, spec/20_memory.md R42 to R51), taking
the exception IllegalOpcode and the interrupt entry, and the return from interrupt (spec/60_exceptions.md R221, R226,
spec/48_jump_call.md R195). -/

namespace Sys2Proof.Machine

/-- What an instruction answers. -/
abbrev Result := Host.Outcome State Fault Refusal

/-! ### Memory as a list of cells -/

/-- The byte at address `k`: the cell listed for it, else `Config.initialByte`. -/
def Memory.get (m : Memory) (k : Nat) : Byte :=
  match m with
  | [] => Config.initialByte
  | (j, v) :: m => if j = k then v else Memory.get m k

/-- `m` with the cell `(k, v)` put in its place by rising address. -/
def Memory.insert (m : Memory) (k : Nat) (v : Byte) : Memory :=
  match m with
  | [] => [(k, v)]
  | (j, w) :: m =>
    if k < j then (k, v) :: (j, w) :: m
    else if k = j then (k, v) :: m
    else (j, w) :: Memory.insert m k v

/-- `m` with byte `k` written; writing what an unlisted address reads as removes the cell. -/
def Memory.set (m : Memory) (k : Nat) (v : Byte) : Memory :=
  if v = Config.initialByte then m.filter (fun c => c.1 != k) else Memory.insert m k v

/-- The canonical form from address `lo` on: addresses strictly rising and inside the address space, no cell equal to
what an unlisted address reads as. -/
def Memory.wfFrom (lo : Nat) (m : Memory) : Bool :=
  match m with
  | [] => true
  | (k, v) :: m =>
    decide (lo ≤ k) && decide (k < Config.memSize) && (v != Config.initialByte) && Memory.wfFrom (k + 1) m

/-- The canonical form of memory. -/
def Memory.wf (m : Memory) : Bool := Memory.wfFrom 0 m

/-! ### Register writes, each leaving everything else alone -/

def State.setA (s : State) (v : Byte) : State := { s with a := v }
def State.setX (s : State) (v : Byte) : State := { s with x := v }
def State.setY (s : State) (v : Byte) : State := { s with y := v }
def State.setSp (s : State) (v : Byte) : State := { s with sp := v }
def State.setPc (s : State) (v : Addr) : State := { s with pc := v }
def State.setP (s : State) (v : Byte) : State := { s with p := v }
def State.setMem (s : State) (m : Memory) : State := { s with mem := m }
def State.setRunState (s : State) (r : RunState) : State := { s with runState := r }
def State.setHaltReason (s : State) (r : Option HaltReason) : State := { s with haltReason := r }

/-- `cycles <- cycles + n` (R21, R232). -/
def State.addCycles (s : State) (n : Nat) : State := { s with cycles := s.cycles + n }

/-- `P.f` (R7). -/
def State.flag (s : State) (f : Flag) : Bool := getFlag f s.p

/-- `P.f <- b`. -/
def State.setFlag (s : State) (f : Flag) (b : Bool) : State := s.setP (Machine.setFlag f b s.p)

/-- `SetZN(v)` (R19). -/
def State.setZN (s : State) (v : Byte) : State := s.setP (Machine.setZN v s.p)

/-! ### The bus -/

/-- `MemRead(addr, 1)` (R42): total, no side effect. -/
def memRead (s : State) (addr : Addr) : Byte := s.mem.get addr.toNat

/-- `MemWrite(addr, 1, v)` (R43). -/
def memWrite (s : State) (addr : Addr) (v : Byte) : State := s.setMem (s.mem.set addr.toNat v)

/-- `MemRead16(addr)` (R47): little-endian, the second address wrapping modulo 65,536. -/
def memRead16 (s : State) (addr : Addr) : Addr := word (memRead s (addr + 1#16)) (memRead s addr)

/-- `Fetch()` (R48). -/
def fetch (s : State) : Byte × State := (memRead s s.pc, s.setPc (s.pc + 1#16))

/-- `0x0100 + SP` (R13, R50). -/
def stackAddr (sp : Byte) : Addr := word Config.stackPage sp

/-- `Push(v)` (R50): write, then decrement. -/
def push (v : Byte) (s : State) : State := (memWrite s (stackAddr s.sp) v).setSp (s.sp - 1#8)

/-- `Pull()` (R51): increment, then read. -/
def pull (s : State) : Byte × State := (memRead s (stackAddr (s.sp + 1#8)), s.setSp (s.sp + 1#8))

/-! ### What every executed instruction does around its own effect -/

/-- PC past the `len` bytes of the instruction (R14, R48) and the run state of an executed instruction (R232). -/
def State.afterFetch (s : State) (len : Nat) : State := (s.setPc (s.pc + BitVec.ofNat 16 len)).setRunState .running

/-- `halt r` (R7, R22, R23). -/
def State.halt (s : State) (r : HaltReason) : State := (s.setRunState .halted).setHaltReason (some r)

/-- The codes of R220, for a model that wants numbers. -/
def HaltReason.code : HaltReason → Nat
  | .brk => 0
  | .illegalOpcode _ _ => 1

/-! ### Exceptions -/

/-- Taking IllegalOpcode(op, opaddr) (R221): PC is the address of the opcode, the core halts with the reason, and
nothing else changes. -/
def takeIllegalOpcode (op : Byte) (opaddr : Addr) (s : State) : State :=
  (s.setPc opaddr).halt (.illegalOpcode op opaddr)

/-- Interrupt entry through `vector` (R226): PC high byte, PC low byte and P with B = 0 are pushed, I is set, PC is
loaded from the vector, the entry's cycles are counted, and the core is Interrupted with no halt reason. -/
def interruptEntry (vector : Addr) (s : State) : State :=
  let s₁ := push (pushByteInterrupt s.p) (push (loByte s.pc) (push (hiByte s.pc) s))
  let s₂ := (s₁.setFlag .irqDisable true).setPc (memRead16 s₁ vector)
  ((s₂.addCycles Config.interruptEntryCycles).setRunState .interrupted).setHaltReason none

/-- The return from interrupt (R195, R229): P, then PC low byte, then PC high byte are pulled; no 1 is added. -/
def returnFromInterrupt (s : State) : State :=
  let (p, s₁) := pull s
  let (lo, s₂) := pull s₁
  let (hi, s₃) := pull s₂
  (s₃.setP (fromByte p)).setPc (word hi lo)

end Sys2Proof.Machine
end

