-- ==== Sys2Proof/Machine/Operands.lean ====
section
/-! DEFINITION. The addressing-mode resolver (spec/40_addressing.md R90 to R106), how an instruction uses its result (R105,
R154), and the shapes of instruction that are built on it: reading, storing, read-modify-write, implied. -/

namespace Sys2Proof.Machine

/-- The `kind` the resolver reports (R90). -/
inductive OperandKind where
  | none | acc | mem | target
deriving DecidableEq, Repr

/-- The triple of R90. -/
structure Resolved where
  kind : OperandKind
  ea : Addr
  crossed : Bool
deriving DecidableEq, Repr

/-- A memory operand at `ea`, no page cross. -/
def Resolved.at (ea : Addr) : Resolved := ⟨.mem, ea, false⟩

/-- A memory operand at `base` plus an unsigned index (R98, R99, R102), with the page-cross report of R104. -/
def Resolved.indexed (base : Addr) (index : Byte) : Resolved :=
  ⟨.mem, base + zext16 index, crossedPage base (base + zext16 index)⟩

/-- Where the high byte of a JMP indirect target is read (`ptr2` of R100): the next address, or, when the pointer's low
byte is 0xFF and the OPEN parameter is true, the start of the same page. The two agree for every other pointer. -/
def indirectHigh (ptr : Addr) : Addr :=
  if loByte ptr = 0xFF#8 ∧ Config.jmpIndPageWrap = true then word (hiByte ptr) (loByte ptr + 1#8) else ptr + 1#16

/-- The pointer stored in page 0 at `z`: both bytes come from page 0 (R101, R102). -/
def zeroPagePointer (s : State) (z : Byte) : Addr := word (memRead s (zeroPage (z + 1#8))) (memRead s (zeroPage z))

/-- `Resolve(mode)` (R90 to R103), in a state whose PC is already past the instruction. The mode's operand bytes are the
instruction's own, fetched by the step (log entry 8). -/
def resolve (o : Operand) (s : State) : Resolved :=
  match o with
  | .imp => ⟨.none, 0#16, false⟩
  | .acc => ⟨.acc, 0#16, false⟩
  | .imm _ => .at (s.pc - 1#16)
  | .zp op8 => .at (zeroPage op8)
  | .zpx op8 => .at (zeroPage (op8 + s.x))
  | .zpy op8 => .at (zeroPage (op8 + s.y))
  | .abs addr => .at addr
  | .abx addr => .indexed addr s.x
  | .aby addr => .indexed addr s.y
  | .ind ptr => .at (word (memRead s (indirectHigh ptr)) (memRead s ptr))
  | .izx op8 => .at (zeroPagePointer s (op8 + s.x))
  | .izy op8 => .indexed (zeroPagePointer s op8) s.y
  | .rel op8 => ⟨.target, s.pc + sext16 op8, false⟩

/-- The operand read (R105, `GetOperand` of R154): A, the immediate byte, or the one read of `ea`. -/
def operandByte (o : Operand) (s : State) : Byte :=
  match o with
  | .acc => s.a
  | .imm v => v
  | o => memRead s (resolve o s).ea

/-- The result written (R105, `PutResult` of R154): to A, or the one write of `ea`. -/
def putResult (o : Operand) (r : Byte) (s : State) : State :=
  match o with
  | .acc => s.setA r
  | o => memWrite s (resolve o s).ea r

/-- An instruction that reads its operand: its effect `f` on the operand and the state, and its cycles with the
page-cross cycle (R260; the `+` cells of R75 are exactly the modes that can report a cross, R104). -/
def readInstr (o : Operand) (base : Nat) (f : Byte → State → State) (s : State) : Result :=
  let t := s.afterFetch o.length
  .next ((f (operandByte o t) t).addCycles (base + if (resolve o t).crossed then 1 else 0))

/-- A store: one write of `ea`, no read of it, no flag, no page-cross cycle (R105, R113). -/
def storeInstr (o : Operand) (base : Nat) (v : Byte) (s : State) : Result :=
  let t := s.afterFetch o.length
  .next ((memWrite t (resolve o t).ea v).addCycles base)

/-- A read-modify-write instruction: `f` takes the operand and P and gives the result and the new P; read and write are
of the same place (R105, R154). -/
def modifyInstr (o : Operand) (base : Nat) (f : Byte → Byte → Byte × Byte) (s : State) : Result :=
  let t := s.afterFetch o.length
  let out := f (operandByte o t) t.p
  .next (((putResult o out.1 t).setP out.2).addCycles base)

/-- An instruction with no operand (R91). -/
def impliedInstr (base : Nat) (f : State → State) (s : State) : Result :=
  .next ((f (s.afterFetch Operand.imp.length)).addCycles base)

end Sys2Proof.Machine
end

