-- ==== Sys2Proof/Machine/Arithmetic.lean ====
section
/-! DEFINITION. Add and subtract with carry (spec/42_arithmetic.md R130 to R134): ADC, SBC. Binary whatever D holds (R132). -/

namespace Sys2Proof.Machine

/-- R131: the adder on A, `m` and C; A, C, V, then Z and N from the result. -/
def addA (m : Byte) (s : State) : State :=
  let sum := addCore s.a m (s.flag .carry)
  (((s.setA sum.r).setFlag .carry sum.cout).setFlag .overflow sum.vout).setZN sum.r

/-- R133: ADC of the one's complement of `m`; C = 1 means no borrow. -/
def subA (m : Byte) (s : State) : State := addA (~~~m) s

/-- R131, ADC immediate (R96), opcode 0x69. -/
def execAdcImm (v : Byte) (s : State) : Result := readInstr (.imm v) 2 addA s

/-- R131, ADC zero-page (R93), opcode 0x65. -/
def execAdcZp (op8 : Byte) (s : State) : Result := readInstr (.zp op8) 3 addA s

/-- R131, ADC zero-page,X (R94), opcode 0x75. -/
def execAdcZpx (op8 : Byte) (s : State) : Result := readInstr (.zpx op8) 4 addA s

/-- R131, ADC absolute (R97), opcode 0x6D. -/
def execAdcAbs (addr : Addr) (s : State) : Result := readInstr (.abs addr) 4 addA s

/-- R131, ADC absolute,X (R98), opcode 0x7D. -/
def execAdcAbx (addr : Addr) (s : State) : Result := readInstr (.abx addr) 4 addA s

/-- R131, ADC absolute,Y (R99), opcode 0x79. -/
def execAdcAby (addr : Addr) (s : State) : Result := readInstr (.aby addr) 4 addA s

/-- R131, ADC (zero-page,X) (R101), opcode 0x61. -/
def execAdcIzx (op8 : Byte) (s : State) : Result := readInstr (.izx op8) 6 addA s

/-- R131, ADC (zero-page),Y (R102), opcode 0x71. -/
def execAdcIzy (op8 : Byte) (s : State) : Result := readInstr (.izy op8) 5 addA s

/-- R133, SBC immediate (R96), opcode 0xE9. -/
def execSbcImm (v : Byte) (s : State) : Result := readInstr (.imm v) 2 subA s

/-- R133, SBC zero-page (R93), opcode 0xE5. -/
def execSbcZp (op8 : Byte) (s : State) : Result := readInstr (.zp op8) 3 subA s

/-- R133, SBC zero-page,X (R94), opcode 0xF5. -/
def execSbcZpx (op8 : Byte) (s : State) : Result := readInstr (.zpx op8) 4 subA s

/-- R133, SBC absolute (R97), opcode 0xED. -/
def execSbcAbs (addr : Addr) (s : State) : Result := readInstr (.abs addr) 4 subA s

/-- R133, SBC absolute,X (R98), opcode 0xFD. -/
def execSbcAbx (addr : Addr) (s : State) : Result := readInstr (.abx addr) 4 subA s

/-- R133, SBC absolute,Y (R99), opcode 0xF9. -/
def execSbcAby (addr : Addr) (s : State) : Result := readInstr (.aby addr) 4 subA s

/-- R133, SBC (zero-page,X) (R101), opcode 0xE1. -/
def execSbcIzx (op8 : Byte) (s : State) : Result := readInstr (.izx op8) 6 subA s

/-- R133, SBC (zero-page),Y (R102), opcode 0xF1. -/
def execSbcIzy (op8 : Byte) (s : State) : Result := readInstr (.izy op8) 5 subA s

end Sys2Proof.Machine
end

