-- ==== Sys2Proof/Machine/Branch.lean ====
section
/-! DEFINITION. Conditional branches (spec/47_branch.md R180 to R188): BCC, BCS, BEQ, BNE, BMI, BPL, BVC, BVS. One shape, the flag and the
value it is tested for being the arguments. -/

namespace Sys2Proof.Machine

/-- R180, for the branch taken when flag `f` is `v`: PC from the resolver's target or left at the next instruction; 2
cycles, one more when taken, one more again when the target lies in another page than the next instruction. -/
def branchInstr (op8 : Byte) (f : Flag) (v : Bool) (s : State) : Result :=
  let next := s.afterFetch (Operand.rel op8).length
  let target := (resolve (.rel op8) next).ea
  if next.flag f = v then
    .next ((next.setPc target).addCycles (2 + (1 + if crossedPage next.pc target then 1 else 0)))
  else
    .next (next.addCycles 2)

/-- R181, BCC relative (R103), opcode 0x90. -/
def execBcc (op8 : Byte) (s : State) : Result := branchInstr op8 .carry false s

/-- R182, BCS relative (R103), opcode 0xB0. -/
def execBcs (op8 : Byte) (s : State) : Result := branchInstr op8 .carry true s

/-- R183, BEQ relative (R103), opcode 0xF0. -/
def execBeq (op8 : Byte) (s : State) : Result := branchInstr op8 .zero true s

/-- R184, BNE relative (R103), opcode 0xD0. -/
def execBne (op8 : Byte) (s : State) : Result := branchInstr op8 .zero false s

/-- R185, BMI relative (R103), opcode 0x30. -/
def execBmi (op8 : Byte) (s : State) : Result := branchInstr op8 .negative true s

/-- R186, BPL relative (R103), opcode 0x10. -/
def execBpl (op8 : Byte) (s : State) : Result := branchInstr op8 .negative false s

/-- R187, BVC relative (R103), opcode 0x50. -/
def execBvc (op8 : Byte) (s : State) : Result := branchInstr op8 .overflow false s

/-- R188, BVS relative (R103), opcode 0x70. -/
def execBvs (op8 : Byte) (s : State) : Result := branchInstr op8 .overflow true s

end Sys2Proof.Machine
end

