-- ==== Sys2Proof/Machine/Compare.lean ====
section
/-! DEFINITION. Compares (spec/46_compare.md R170 to R173): CMP, CPX, CPY. They change C, Z and N and nothing else. -/

namespace Sys2Proof.Machine

/-- R171: `Compare(A, m)`. -/
def compareA (m : Byte) (s : State) : State := s.setP (compare s.a m s.p)

/-- R172: `Compare(X, m)`. -/
def compareX (m : Byte) (s : State) : State := s.setP (compare s.x m s.p)

/-- R173: `Compare(Y, m)`. -/
def compareY (m : Byte) (s : State) : State := s.setP (compare s.y m s.p)

/-- R171, CMP immediate (R96), opcode 0xC9. -/
def execCmpImm (v : Byte) (s : State) : Result := readInstr (.imm v) 2 compareA s

/-- R171, CMP zero-page (R93), opcode 0xC5. -/
def execCmpZp (op8 : Byte) (s : State) : Result := readInstr (.zp op8) 3 compareA s

/-- R171, CMP zero-page,X (R94), opcode 0xD5. -/
def execCmpZpx (op8 : Byte) (s : State) : Result := readInstr (.zpx op8) 4 compareA s

/-- R171, CMP absolute (R97), opcode 0xCD. -/
def execCmpAbs (addr : Addr) (s : State) : Result := readInstr (.abs addr) 4 compareA s

/-- R171, CMP absolute,X (R98), opcode 0xDD. -/
def execCmpAbx (addr : Addr) (s : State) : Result := readInstr (.abx addr) 4 compareA s

/-- R171, CMP absolute,Y (R99), opcode 0xD9. -/
def execCmpAby (addr : Addr) (s : State) : Result := readInstr (.aby addr) 4 compareA s

/-- R171, CMP (zero-page,X) (R101), opcode 0xC1. -/
def execCmpIzx (op8 : Byte) (s : State) : Result := readInstr (.izx op8) 6 compareA s

/-- R171, CMP (zero-page),Y (R102), opcode 0xD1. -/
def execCmpIzy (op8 : Byte) (s : State) : Result := readInstr (.izy op8) 5 compareA s

/-- R172, CPX immediate (R96), opcode 0xE0. -/
def execCpxImm (v : Byte) (s : State) : Result := readInstr (.imm v) 2 compareX s

/-- R172, CPX zero-page (R93), opcode 0xE4. -/
def execCpxZp (op8 : Byte) (s : State) : Result := readInstr (.zp op8) 3 compareX s

/-- R172, CPX absolute (R97), opcode 0xEC. -/
def execCpxAbs (addr : Addr) (s : State) : Result := readInstr (.abs addr) 4 compareX s

/-- R173, CPY immediate (R96), opcode 0xC0. -/
def execCpyImm (v : Byte) (s : State) : Result := readInstr (.imm v) 2 compareY s

/-- R173, CPY zero-page (R93), opcode 0xC4. -/
def execCpyZp (op8 : Byte) (s : State) : Result := readInstr (.zp op8) 3 compareY s

/-- R173, CPY absolute (R97), opcode 0xCC. -/
def execCpyAbs (addr : Addr) (s : State) : Result := readInstr (.abs addr) 4 compareY s

end Sys2Proof.Machine
end

