-- ==== Sys2Proof/Machine/Illegal.lean ====
section
/-! DEFINITION. The 105 opcode values outside the official set (spec/30_encoding.md R77, spec/60_exceptions.md R221). -/

namespace Sys2Proof.Machine

/-- R221: the exception IllegalOpcode, taken at the address of the opcode; 0 cycles, no operand byte fetched. -/
def execIllegal (op : Byte) (s : State) : Result := .next (takeIllegalOpcode op s.pc s)

end Sys2Proof.Machine
end

