-- ==== Sys2Proof/Machine/IncDec.lean ====
section
/-! DEFINITION. Increment and decrement (spec/43_incdec.md R140 to R145): INC, INX, INY, DEC, DEX, DEY. None reads or writes C or V. -/

namespace Sys2Proof.Machine

/-- R140: `r <- m +_8 1; SetZN(r)`, as a function of the operand and P. -/
def incByte (m p : Byte) : Byte × Byte := (m + 1#8, setZN (m + 1#8) p)

/-- R143: `r <- m -_8 1; SetZN(r)`. -/
def decByte (m p : Byte) : Byte × Byte := (m - 1#8, setZN (m - 1#8) p)

/-- R141. -/
def incX (s : State) : State := (s.setX (s.x + 1#8)).setZN (s.x + 1#8)

/-- R142. -/
def incY (s : State) : State := (s.setY (s.y + 1#8)).setZN (s.y + 1#8)

/-- R144. -/
def decX (s : State) : State := (s.setX (s.x - 1#8)).setZN (s.x - 1#8)

/-- R145. -/
def decY (s : State) : State := (s.setY (s.y - 1#8)).setZN (s.y - 1#8)

/-- R140, INC zero-page (R93), opcode 0xE6. -/
def execIncZp (op8 : Byte) (s : State) : Result := modifyInstr (.zp op8) 5 incByte s

/-- R140, INC zero-page,X (R94), opcode 0xF6. -/
def execIncZpx (op8 : Byte) (s : State) : Result := modifyInstr (.zpx op8) 6 incByte s

/-- R140, INC absolute (R97), opcode 0xEE. -/
def execIncAbs (addr : Addr) (s : State) : Result := modifyInstr (.abs addr) 6 incByte s

/-- R140, INC absolute,X (R98), opcode 0xFE. -/
def execIncAbx (addr : Addr) (s : State) : Result := modifyInstr (.abx addr) 7 incByte s

/-- R141, INX implied (R91), opcode 0xE8. -/
def execInx (s : State) : Result := impliedInstr 2 incX s

/-- R142, INY implied (R91), opcode 0xC8. -/
def execIny (s : State) : Result := impliedInstr 2 incY s

/-- R143, DEC zero-page (R93), opcode 0xC6. -/
def execDecZp (op8 : Byte) (s : State) : Result := modifyInstr (.zp op8) 5 decByte s

/-- R143, DEC zero-page,X (R94), opcode 0xD6. -/
def execDecZpx (op8 : Byte) (s : State) : Result := modifyInstr (.zpx op8) 6 decByte s

/-- R143, DEC absolute (R97), opcode 0xCE. -/
def execDecAbs (addr : Addr) (s : State) : Result := modifyInstr (.abs addr) 6 decByte s

/-- R143, DEC absolute,X (R98), opcode 0xDE. -/
def execDecAbx (addr : Addr) (s : State) : Result := modifyInstr (.abx addr) 7 decByte s

/-- R144, DEX implied (R91), opcode 0xCA. -/
def execDex (s : State) : Result := impliedInstr 2 decX s

/-- R145, DEY implied (R91), opcode 0x88. -/
def execDey (s : State) : Result := impliedInstr 2 decY s

end Sys2Proof.Machine
end

