-- ==== Sys2Proof/Machine/JumpCall.lean ====
section
/-! DEFINITION. Jumps, call and returns (spec/48_jump_call.md R190 to R195): JMP, JSR, RTS, RTI. The return from interrupt is the shared
operation of Machine/Ops.lean. -/

namespace Sys2Proof.Machine

/-- R190, R191: PC is the address the resolver gives; the byte there is not read. -/
def jumpInstr (o : Operand) (base : Nat) (s : State) : Result :=
  let next := s.afterFetch o.length
  .next ((next.setPc (resolve o next).ea).addCycles base)

/-- R192: push the address of the last byte of the JSR, high byte first, then jump. -/
def callInstr (addr : Addr) (base : Nat) (s : State) : Result :=
  let next := s.afterFetch (Operand.abs addr).length
  let ret := next.pc - 1#16
  .next ((((push (loByte ret) (push (hiByte ret) next))).setPc (resolve (.abs addr) next).ea).addCycles base)

/-- R193: `lo <- Pull(); hi <- Pull(); PC <- {hi, lo} +_16 1`. -/
def returnFromSubroutine (s : State) : State :=
  let (lo, s₁) := pull s
  let (hi, s₂) := pull s₁
  s₂.setPc (word hi lo + 1#16)

/-- R190, JMP absolute (R97), opcode 0x4C. -/
def execJmpAbs (addr : Addr) (s : State) : Result := jumpInstr (.abs addr) 3 s

/-- R191, JMP indirect (R100), opcode 0x6C. -/
def execJmpInd (addr : Addr) (s : State) : Result := jumpInstr (.ind addr) 5 s

/-- R192, JSR absolute (R97), opcode 0x20. -/
def execJsr (addr : Addr) (s : State) : Result := callInstr addr 6 s

/-- R193, RTS implied (R91), opcode 0x60. -/
def execRts (s : State) : Result := impliedInstr 6 returnFromSubroutine s

/-- R195, RTI implied (R91), opcode 0x40. -/
def execRti (s : State) : Result := impliedInstr 6 returnFromInterrupt s

end Sys2Proof.Machine
end

