-- ==== Sys2Proof/Machine/LoadStore.lean ====
section
/-! DEFINITION. Loads and stores (spec/41_load_store_transfer.md R110 to R115): LDA, LDX, LDY, STA, STX, STY. A load pays the page-cross
cycle where the resolver reports a cross, a store never does (R75). -/

namespace Sys2Proof.Machine

/-- R110: `A <- m; SetZN(m)`. -/
def loadA (m : Byte) (s : State) : State := (s.setA m).setZN m

/-- R111: `X <- m; SetZN(m)`. -/
def loadX (m : Byte) (s : State) : State := (s.setX m).setZN m

/-- R112: `Y <- m; SetZN(m)`. -/
def loadY (m : Byte) (s : State) : State := (s.setY m).setZN m

/-- R110, LDA immediate (R96), opcode 0xA9. -/
def execLdaImm (v : Byte) (s : State) : Result := readInstr (.imm v) 2 loadA s

/-- R110, LDA zero-page (R93), opcode 0xA5. -/
def execLdaZp (op8 : Byte) (s : State) : Result := readInstr (.zp op8) 3 loadA s

/-- R110, LDA zero-page,X (R94), opcode 0xB5. -/
def execLdaZpx (op8 : Byte) (s : State) : Result := readInstr (.zpx op8) 4 loadA s

/-- R110, LDA absolute (R97), opcode 0xAD. -/
def execLdaAbs (addr : Addr) (s : State) : Result := readInstr (.abs addr) 4 loadA s

/-- R110, LDA absolute,X (R98), opcode 0xBD. -/
def execLdaAbx (addr : Addr) (s : State) : Result := readInstr (.abx addr) 4 loadA s

/-- R110, LDA absolute,Y (R99), opcode 0xB9. -/
def execLdaAby (addr : Addr) (s : State) : Result := readInstr (.aby addr) 4 loadA s

/-- R110, LDA (zero-page,X) (R101), opcode 0xA1. -/
def execLdaIzx (op8 : Byte) (s : State) : Result := readInstr (.izx op8) 6 loadA s

/-- R110, LDA (zero-page),Y (R102), opcode 0xB1. -/
def execLdaIzy (op8 : Byte) (s : State) : Result := readInstr (.izy op8) 5 loadA s

/-- R111, LDX immediate (R96), opcode 0xA2. -/
def execLdxImm (v : Byte) (s : State) : Result := readInstr (.imm v) 2 loadX s

/-- R111, LDX zero-page (R93), opcode 0xA6. -/
def execLdxZp (op8 : Byte) (s : State) : Result := readInstr (.zp op8) 3 loadX s

/-- R111, LDX zero-page,Y (R95), opcode 0xB6. -/
def execLdxZpy (op8 : Byte) (s : State) : Result := readInstr (.zpy op8) 4 loadX s

/-- R111, LDX absolute (R97), opcode 0xAE. -/
def execLdxAbs (addr : Addr) (s : State) : Result := readInstr (.abs addr) 4 loadX s

/-- R111, LDX absolute,Y (R99), opcode 0xBE. -/
def execLdxAby (addr : Addr) (s : State) : Result := readInstr (.aby addr) 4 loadX s

/-- R112, LDY immediate (R96), opcode 0xA0. -/
def execLdyImm (v : Byte) (s : State) : Result := readInstr (.imm v) 2 loadY s

/-- R112, LDY zero-page (R93), opcode 0xA4. -/
def execLdyZp (op8 : Byte) (s : State) : Result := readInstr (.zp op8) 3 loadY s

/-- R112, LDY zero-page,X (R94), opcode 0xB4. -/
def execLdyZpx (op8 : Byte) (s : State) : Result := readInstr (.zpx op8) 4 loadY s

/-- R112, LDY absolute (R97), opcode 0xAC. -/
def execLdyAbs (addr : Addr) (s : State) : Result := readInstr (.abs addr) 4 loadY s

/-- R112, LDY absolute,X (R98), opcode 0xBC. -/
def execLdyAbx (addr : Addr) (s : State) : Result := readInstr (.abx addr) 4 loadY s

/-- R113, STA zero-page (R93), opcode 0x85. -/
def execStaZp (op8 : Byte) (s : State) : Result := storeInstr (.zp op8) 3 s.a s

/-- R113, STA zero-page,X (R94), opcode 0x95. -/
def execStaZpx (op8 : Byte) (s : State) : Result := storeInstr (.zpx op8) 4 s.a s

/-- R113, STA absolute (R97), opcode 0x8D. -/
def execStaAbs (addr : Addr) (s : State) : Result := storeInstr (.abs addr) 4 s.a s

/-- R113, STA absolute,X (R98), opcode 0x9D. -/
def execStaAbx (addr : Addr) (s : State) : Result := storeInstr (.abx addr) 5 s.a s

/-- R113, STA absolute,Y (R99), opcode 0x99. -/
def execStaAby (addr : Addr) (s : State) : Result := storeInstr (.aby addr) 5 s.a s

/-- R113, STA (zero-page,X) (R101), opcode 0x81. -/
def execStaIzx (op8 : Byte) (s : State) : Result := storeInstr (.izx op8) 6 s.a s

/-- R113, STA (zero-page),Y (R102), opcode 0x91. -/
def execStaIzy (op8 : Byte) (s : State) : Result := storeInstr (.izy op8) 6 s.a s

/-- R114, STX zero-page (R93), opcode 0x86. -/
def execStxZp (op8 : Byte) (s : State) : Result := storeInstr (.zp op8) 3 s.x s

/-- R114, STX zero-page,Y (R95), opcode 0x96. -/
def execStxZpy (op8 : Byte) (s : State) : Result := storeInstr (.zpy op8) 4 s.x s

/-- R114, STX absolute (R97), opcode 0x8E. -/
def execStxAbs (addr : Addr) (s : State) : Result := storeInstr (.abs addr) 4 s.x s

/-- R115, STY zero-page (R93), opcode 0x84. -/
def execStyZp (op8 : Byte) (s : State) : Result := storeInstr (.zp op8) 3 s.y s

/-- R115, STY zero-page,X (R94), opcode 0x94. -/
def execStyZpx (op8 : Byte) (s : State) : Result := storeInstr (.zpx op8) 4 s.y s

/-- R115, STY absolute (R97), opcode 0x8C. -/
def execStyAbs (addr : Addr) (s : State) : Result := storeInstr (.abs addr) 4 s.y s

end Sys2Proof.Machine
end

