-- ==== Sys2Proof/Machine/Logical.lean ====
section
/-! DEFINITION. Logical operations and bit test (spec/45_logical.md R160 to R163): AND, ORA, EOR, BIT. -/

namespace Sys2Proof.Machine

/-- R160. -/
def andA (m : Byte) (s : State) : State := (s.setA (s.a &&& m)).setZN (s.a &&& m)

/-- R161. -/
def orA (m : Byte) (s : State) : State := (s.setA (s.a ||| m)).setZN (s.a ||| m)

/-- R162. -/
def xorA (m : Byte) (s : State) : State := (s.setA (s.a ^^^ m)).setZN (s.a ^^^ m)

/-- R163: Z from `A & m`, N and V from bits 7 and 6 of the operand itself; A is unchanged. -/
def bitTest (m : Byte) (s : State) : State :=
  ((s.setFlag .zero (s.a &&& m == 0#8)).setFlag .negative (m.getLsbD 7)).setFlag .overflow (m.getLsbD 6)

/-- R160, AND immediate (R96), opcode 0x29. -/
def execAndImm (v : Byte) (s : State) : Result := readInstr (.imm v) 2 andA s

/-- R160, AND zero-page (R93), opcode 0x25. -/
def execAndZp (op8 : Byte) (s : State) : Result := readInstr (.zp op8) 3 andA s

/-- R160, AND zero-page,X (R94), opcode 0x35. -/
def execAndZpx (op8 : Byte) (s : State) : Result := readInstr (.zpx op8) 4 andA s

/-- R160, AND absolute (R97), opcode 0x2D. -/
def execAndAbs (addr : Addr) (s : State) : Result := readInstr (.abs addr) 4 andA s

/-- R160, AND absolute,X (R98), opcode 0x3D. -/
def execAndAbx (addr : Addr) (s : State) : Result := readInstr (.abx addr) 4 andA s

/-- R160, AND absolute,Y (R99), opcode 0x39. -/
def execAndAby (addr : Addr) (s : State) : Result := readInstr (.aby addr) 4 andA s

/-- R160, AND (zero-page,X) (R101), opcode 0x21. -/
def execAndIzx (op8 : Byte) (s : State) : Result := readInstr (.izx op8) 6 andA s

/-- R160, AND (zero-page),Y (R102), opcode 0x31. -/
def execAndIzy (op8 : Byte) (s : State) : Result := readInstr (.izy op8) 5 andA s

/-- R161, ORA immediate (R96), opcode 0x09. -/
def execOraImm (v : Byte) (s : State) : Result := readInstr (.imm v) 2 orA s

/-- R161, ORA zero-page (R93), opcode 0x05. -/
def execOraZp (op8 : Byte) (s : State) : Result := readInstr (.zp op8) 3 orA s

/-- R161, ORA zero-page,X (R94), opcode 0x15. -/
def execOraZpx (op8 : Byte) (s : State) : Result := readInstr (.zpx op8) 4 orA s

/-- R161, ORA absolute (R97), opcode 0x0D. -/
def execOraAbs (addr : Addr) (s : State) : Result := readInstr (.abs addr) 4 orA s

/-- R161, ORA absolute,X (R98), opcode 0x1D. -/
def execOraAbx (addr : Addr) (s : State) : Result := readInstr (.abx addr) 4 orA s

/-- R161, ORA absolute,Y (R99), opcode 0x19. -/
def execOraAby (addr : Addr) (s : State) : Result := readInstr (.aby addr) 4 orA s

/-- R161, ORA (zero-page,X) (R101), opcode 0x01. -/
def execOraIzx (op8 : Byte) (s : State) : Result := readInstr (.izx op8) 6 orA s

/-- R161, ORA (zero-page),Y (R102), opcode 0x11. -/
def execOraIzy (op8 : Byte) (s : State) : Result := readInstr (.izy op8) 5 orA s

/-- R162, EOR immediate (R96), opcode 0x49. -/
def execEorImm (v : Byte) (s : State) : Result := readInstr (.imm v) 2 xorA s

/-- R162, EOR zero-page (R93), opcode 0x45. -/
def execEorZp (op8 : Byte) (s : State) : Result := readInstr (.zp op8) 3 xorA s

/-- R162, EOR zero-page,X (R94), opcode 0x55. -/
def execEorZpx (op8 : Byte) (s : State) : Result := readInstr (.zpx op8) 4 xorA s

/-- R162, EOR absolute (R97), opcode 0x4D. -/
def execEorAbs (addr : Addr) (s : State) : Result := readInstr (.abs addr) 4 xorA s

/-- R162, EOR absolute,X (R98), opcode 0x5D. -/
def execEorAbx (addr : Addr) (s : State) : Result := readInstr (.abx addr) 4 xorA s

/-- R162, EOR absolute,Y (R99), opcode 0x59. -/
def execEorAby (addr : Addr) (s : State) : Result := readInstr (.aby addr) 4 xorA s

/-- R162, EOR (zero-page,X) (R101), opcode 0x41. -/
def execEorIzx (op8 : Byte) (s : State) : Result := readInstr (.izx op8) 6 xorA s

/-- R162, EOR (zero-page),Y (R102), opcode 0x51. -/
def execEorIzy (op8 : Byte) (s : State) : Result := readInstr (.izy op8) 5 xorA s

/-- R163, BIT zero-page (R93), opcode 0x24. -/
def execBitZp (op8 : Byte) (s : State) : Result := readInstr (.zp op8) 3 bitTest s

/-- R163, BIT absolute (R97), opcode 0x2C. -/
def execBitAbs (addr : Addr) (s : State) : Result := readInstr (.abs addr) 4 bitTest s

end Sys2Proof.Machine
end

