-- ==== Sys2Proof/Machine/ShiftRotate.lean ====
section
/-! DEFINITION. Shifts and rotates by one position (spec/44_shift_rotate.md R150 to R154): ASL, LSR, ROL, ROR, on A or on memory. -/

namespace Sys2Proof.Machine

/-- The shared end of R150 to R153: the result, C from the bit shifted out, Z and N from the result. -/
def shifted (r : Byte) (out : Bool) (p : Byte) : Byte × Byte := (r, setZN r (setFlag .carry out p))

/-- R150: `{v[6:0], 0}`, C from `v[7]`. -/
def shiftLeft (v p : Byte) : Byte × Byte := shifted (v.extractLsb' 0 7 ++ 0#1) (v.getLsbD 7) p

/-- R151: `{0, v[7:1]}`, C from `v[0]`. -/
def shiftRight (v p : Byte) : Byte × Byte := shifted (0#1 ++ v.extractLsb' 1 7) (v.getLsbD 0) p

/-- R152: `{v[6:0], P.C}` with the old C, C from `v[7]`. -/
def rotateLeft (v p : Byte) : Byte × Byte :=
  shifted (v.extractLsb' 0 7 ++ BitVec.ofBool (getFlag .carry p)) (v.getLsbD 7) p

/-- R153: `{P.C, v[7:1]}` with the old C, C from `v[0]`. -/
def rotateRight (v p : Byte) : Byte × Byte :=
  shifted (BitVec.ofBool (getFlag .carry p) ++ v.extractLsb' 1 7) (v.getLsbD 0) p

/-- R150, ASL accumulator (R92), opcode 0x0A. -/
def execAslAcc (s : State) : Result := modifyInstr .acc 2 shiftLeft s

/-- R150, ASL zero-page (R93), opcode 0x06. -/
def execAslZp (op8 : Byte) (s : State) : Result := modifyInstr (.zp op8) 5 shiftLeft s

/-- R150, ASL zero-page,X (R94), opcode 0x16. -/
def execAslZpx (op8 : Byte) (s : State) : Result := modifyInstr (.zpx op8) 6 shiftLeft s

/-- R150, ASL absolute (R97), opcode 0x0E. -/
def execAslAbs (addr : Addr) (s : State) : Result := modifyInstr (.abs addr) 6 shiftLeft s

/-- R150, ASL absolute,X (R98), opcode 0x1E. -/
def execAslAbx (addr : Addr) (s : State) : Result := modifyInstr (.abx addr) 7 shiftLeft s

/-- R151, LSR accumulator (R92), opcode 0x4A. -/
def execLsrAcc (s : State) : Result := modifyInstr .acc 2 shiftRight s

/-- R151, LSR zero-page (R93), opcode 0x46. -/
def execLsrZp (op8 : Byte) (s : State) : Result := modifyInstr (.zp op8) 5 shiftRight s

/-- R151, LSR zero-page,X (R94), opcode 0x56. -/
def execLsrZpx (op8 : Byte) (s : State) : Result := modifyInstr (.zpx op8) 6 shiftRight s

/-- R151, LSR absolute (R97), opcode 0x4E. -/
def execLsrAbs (addr : Addr) (s : State) : Result := modifyInstr (.abs addr) 6 shiftRight s

/-- R151, LSR absolute,X (R98), opcode 0x5E. -/
def execLsrAbx (addr : Addr) (s : State) : Result := modifyInstr (.abx addr) 7 shiftRight s

/-- R152, ROL accumulator (R92), opcode 0x2A. -/
def execRolAcc (s : State) : Result := modifyInstr .acc 2 rotateLeft s

/-- R152, ROL zero-page (R93), opcode 0x26. -/
def execRolZp (op8 : Byte) (s : State) : Result := modifyInstr (.zp op8) 5 rotateLeft s

/-- R152, ROL zero-page,X (R94), opcode 0x36. -/
def execRolZpx (op8 : Byte) (s : State) : Result := modifyInstr (.zpx op8) 6 rotateLeft s

/-- R152, ROL absolute (R97), opcode 0x2E. -/
def execRolAbs (addr : Addr) (s : State) : Result := modifyInstr (.abs addr) 6 rotateLeft s

/-- R152, ROL absolute,X (R98), opcode 0x3E. -/
def execRolAbx (addr : Addr) (s : State) : Result := modifyInstr (.abx addr) 7 rotateLeft s

/-- R153, ROR accumulator (R92), opcode 0x6A. -/
def execRorAcc (s : State) : Result := modifyInstr .acc 2 rotateRight s

/-- R153, ROR zero-page (R93), opcode 0x66. -/
def execRorZp (op8 : Byte) (s : State) : Result := modifyInstr (.zp op8) 5 rotateRight s

/-- R153, ROR zero-page,X (R94), opcode 0x76. -/
def execRorZpx (op8 : Byte) (s : State) : Result := modifyInstr (.zpx op8) 6 rotateRight s

/-- R153, ROR absolute (R97), opcode 0x6E. -/
def execRorAbs (addr : Addr) (s : State) : Result := modifyInstr (.abs addr) 6 rotateRight s

/-- R153, ROR absolute,X (R98), opcode 0x7E. -/
def execRorAbx (addr : Addr) (s : State) : Result := modifyInstr (.abx addr) 7 rotateRight s

end Sys2Proof.Machine
end

