-- ==== Sys2Proof/Machine/StackFlagsSystem.lean ====
section
/-! DEFINITION. Stack, flag, no-op and break instructions (spec/49_stack_flags_system.md R200 to R212). -/

namespace Sys2Proof.Machine

/-- R200. -/
def pushA (s : State) : State := push s.a s

/-- R201: the pushed byte has B = 1 and U = 1; P itself is unchanged. -/
def pushP (s : State) : State := push (pushByteSoftware s.p) s

/-- R202. -/
def pullA (s : State) : State :=
  let (v, s₁) := pull s
  (s₁.setA v).setZN v

/-- R203. -/
def pullP (s : State) : State :=
  let (v, s₁) := pull s
  s₁.setP (fromByte v)

/-- R211: nothing beyond what every step does. -/
def noOperation (s : State) : State := s

/-- R212, R222: `halt Break`. PC stays past the opcode; nothing is pushed and no vector is read. -/
def haltBreak (s : State) : State := s.halt .brk

/-- R200, PHA implied (R91), opcode 0x48. -/
def execPha (s : State) : Result := impliedInstr 3 pushA s

/-- R201, PHP implied (R91), opcode 0x08. -/
def execPhp (s : State) : Result := impliedInstr 3 pushP s

/-- R202, PLA implied (R91), opcode 0x68. -/
def execPla (s : State) : Result := impliedInstr 4 pullA s

/-- R203, PLP implied (R91), opcode 0x28. -/
def execPlp (s : State) : Result := impliedInstr 4 pullP s

/-- R204, CLC implied (R91), opcode 0x18. -/
def execClc (s : State) : Result := impliedInstr 2 (fun t => t.setFlag .carry false) s

/-- R205, SEC implied (R91), opcode 0x38. -/
def execSec (s : State) : Result := impliedInstr 2 (fun t => t.setFlag .carry true) s

/-- R206, CLI implied (R91), opcode 0x58. -/
def execCli (s : State) : Result := impliedInstr 2 (fun t => t.setFlag .irqDisable false) s

/-- R207, SEI implied (R91), opcode 0x78. -/
def execSei (s : State) : Result := impliedInstr 2 (fun t => t.setFlag .irqDisable true) s

/-- R208, CLD implied (R91), opcode 0xD8. -/
def execCld (s : State) : Result := impliedInstr 2 (fun t => t.setFlag .decimal false) s

/-- R209, SED implied (R91), opcode 0xF8. -/
def execSed (s : State) : Result := impliedInstr 2 (fun t => t.setFlag .decimal true) s

/-- R210, CLV implied (R91), opcode 0xB8. -/
def execClv (s : State) : Result := impliedInstr 2 (fun t => t.setFlag .overflow false) s

/-- R211, NOP implied (R91), opcode 0xEA. -/
def execNop (s : State) : Result := impliedInstr 2 noOperation s

/-- R212, BRK implied (R91), opcode 0x00. -/
def execBrk (s : State) : Result := impliedInstr 7 haltBreak s

end Sys2Proof.Machine
end

