-- ==== Sys2Proof/Machine/Transfer.lean ====
section
/-! DEFINITION. Register transfers (spec/41_load_store_transfer.md R116 to R121): TAX, TAY, TXA, TYA, TSX, TXS. -/

namespace Sys2Proof.Machine

/-- R116: `X <- A; SetZN(X)`. -/
def aToX (s : State) : State := (s.setX s.a).setZN s.a

/-- R117: `Y <- A; SetZN(Y)`. -/
def aToY (s : State) : State := (s.setY s.a).setZN s.a

/-- R118: `A <- X; SetZN(A)`. -/
def xToA (s : State) : State := (s.setA s.x).setZN s.x

/-- R119: `A <- Y; SetZN(A)`. -/
def yToA (s : State) : State := (s.setA s.y).setZN s.y

/-- R120: `X <- SP; SetZN(X)`. -/
def spToX (s : State) : State := (s.setX s.sp).setZN s.sp

/-- R121: `SP <- X`; the one transfer that writes no flag. -/
def xToSp (s : State) : State := s.setSp s.x

/-- R116, TAX implied (R91), opcode 0xAA. -/
def execTax (s : State) : Result := impliedInstr 2 aToX s

/-- R117, TAY implied (R91), opcode 0xA8. -/
def execTay (s : State) : Result := impliedInstr 2 aToY s

/-- R118, TXA implied (R91), opcode 0x8A. -/
def execTxa (s : State) : Result := impliedInstr 2 xToA s

/-- R119, TYA implied (R91), opcode 0x98. -/
def execTya (s : State) : Result := impliedInstr 2 yToA s

/-- R120, TSX implied (R91), opcode 0xBA. -/
def execTsx (s : State) : Result := impliedInstr 2 spToX s

/-- R121, TXS implied (R91), opcode 0x9A. -/
def execTxs (s : State) : Result := impliedInstr 2 xToSp s

end Sys2Proof.Machine
end

