-- ==== Sys2Proof/Machine/Dispatch.lean ====
section
/-! DEFINITION. One arm for each constructor of `Instr`: the meaning of that instruction (R232, "execute d.mnemonic per
its rule"). -/

namespace Sys2Proof.Machine

def exec (i : Instr) (s : State) : Host.Outcome State Fault Refusal :=
  match i with
  -- spec/41_load_store_transfer.md
  | .ldaImm v => Sys2Proof.Machine.execLdaImm v s
  | .ldaZp op8 => Sys2Proof.Machine.execLdaZp op8 s
  | .ldaZpx op8 => Sys2Proof.Machine.execLdaZpx op8 s
  | .ldaAbs addr => Sys2Proof.Machine.execLdaAbs addr s
  | .ldaAbx addr => Sys2Proof.Machine.execLdaAbx addr s
  | .ldaAby addr => Sys2Proof.Machine.execLdaAby addr s
  | .ldaIzx op8 => Sys2Proof.Machine.execLdaIzx op8 s
  | .ldaIzy op8 => Sys2Proof.Machine.execLdaIzy op8 s
  | .ldxImm v => Sys2Proof.Machine.execLdxImm v s
  | .ldxZp op8 => Sys2Proof.Machine.execLdxZp op8 s
  | .ldxZpy op8 => Sys2Proof.Machine.execLdxZpy op8 s
  | .ldxAbs addr => Sys2Proof.Machine.execLdxAbs addr s
  | .ldxAby addr => Sys2Proof.Machine.execLdxAby addr s
  | .ldyImm v => Sys2Proof.Machine.execLdyImm v s
  | .ldyZp op8 => Sys2Proof.Machine.execLdyZp op8 s
  | .ldyZpx op8 => Sys2Proof.Machine.execLdyZpx op8 s
  | .ldyAbs addr => Sys2Proof.Machine.execLdyAbs addr s
  | .ldyAbx addr => Sys2Proof.Machine.execLdyAbx addr s
  | .staZp op8 => Sys2Proof.Machine.execStaZp op8 s
  | .staZpx op8 => Sys2Proof.Machine.execStaZpx op8 s
  | .staAbs addr => Sys2Proof.Machine.execStaAbs addr s
  | .staAbx addr => Sys2Proof.Machine.execStaAbx addr s
  | .staAby addr => Sys2Proof.Machine.execStaAby addr s
  | .staIzx op8 => Sys2Proof.Machine.execStaIzx op8 s
  | .staIzy op8 => Sys2Proof.Machine.execStaIzy op8 s
  | .stxZp op8 => Sys2Proof.Machine.execStxZp op8 s
  | .stxZpy op8 => Sys2Proof.Machine.execStxZpy op8 s
  | .stxAbs addr => Sys2Proof.Machine.execStxAbs addr s
  | .styZp op8 => Sys2Proof.Machine.execStyZp op8 s
  | .styZpx op8 => Sys2Proof.Machine.execStyZpx op8 s
  | .styAbs addr => Sys2Proof.Machine.execStyAbs addr s
  -- spec/41_load_store_transfer.md
  | .tax => Sys2Proof.Machine.execTax s
  | .tay => Sys2Proof.Machine.execTay s
  | .txa => Sys2Proof.Machine.execTxa s
  | .tya => Sys2Proof.Machine.execTya s
  | .tsx => Sys2Proof.Machine.execTsx s
  | .txs => Sys2Proof.Machine.execTxs s
  -- spec/42_arithmetic.md
  | .adcImm v => Sys2Proof.Machine.execAdcImm v s
  | .adcZp op8 => Sys2Proof.Machine.execAdcZp op8 s
  | .adcZpx op8 => Sys2Proof.Machine.execAdcZpx op8 s
  | .adcAbs addr => Sys2Proof.Machine.execAdcAbs addr s
  | .adcAbx addr => Sys2Proof.Machine.execAdcAbx addr s
  | .adcAby addr => Sys2Proof.Machine.execAdcAby addr s
  | .adcIzx op8 => Sys2Proof.Machine.execAdcIzx op8 s
  | .adcIzy op8 => Sys2Proof.Machine.execAdcIzy op8 s
  | .sbcImm v => Sys2Proof.Machine.execSbcImm v s
  | .sbcZp op8 => Sys2Proof.Machine.execSbcZp op8 s
  | .sbcZpx op8 => Sys2Proof.Machine.execSbcZpx op8 s
  | .sbcAbs addr => Sys2Proof.Machine.execSbcAbs addr s
  | .sbcAbx addr => Sys2Proof.Machine.execSbcAbx addr s
  | .sbcAby addr => Sys2Proof.Machine.execSbcAby addr s
  | .sbcIzx op8 => Sys2Proof.Machine.execSbcIzx op8 s
  | .sbcIzy op8 => Sys2Proof.Machine.execSbcIzy op8 s
  -- spec/43_incdec.md
  | .incZp op8 => Sys2Proof.Machine.execIncZp op8 s
  | .incZpx op8 => Sys2Proof.Machine.execIncZpx op8 s
  | .incAbs addr => Sys2Proof.Machine.execIncAbs addr s
  | .incAbx addr => Sys2Proof.Machine.execIncAbx addr s
  | .inx => Sys2Proof.Machine.execInx s
  | .iny => Sys2Proof.Machine.execIny s
  | .decZp op8 => Sys2Proof.Machine.execDecZp op8 s
  | .decZpx op8 => Sys2Proof.Machine.execDecZpx op8 s
  | .decAbs addr => Sys2Proof.Machine.execDecAbs addr s
  | .decAbx addr => Sys2Proof.Machine.execDecAbx addr s
  | .dex => Sys2Proof.Machine.execDex s
  | .dey => Sys2Proof.Machine.execDey s
  -- spec/44_shift_rotate.md
  | .aslAcc => Sys2Proof.Machine.execAslAcc s
  | .aslZp op8 => Sys2Proof.Machine.execAslZp op8 s
  | .aslZpx op8 => Sys2Proof.Machine.execAslZpx op8 s
  | .aslAbs addr => Sys2Proof.Machine.execAslAbs addr s
  | .aslAbx addr => Sys2Proof.Machine.execAslAbx addr s
  | .lsrAcc => Sys2Proof.Machine.execLsrAcc s
  | .lsrZp op8 => Sys2Proof.Machine.execLsrZp op8 s
  | .lsrZpx op8 => Sys2Proof.Machine.execLsrZpx op8 s
  | .lsrAbs addr => Sys2Proof.Machine.execLsrAbs addr s
  | .lsrAbx addr => Sys2Proof.Machine.execLsrAbx addr s
  | .rolAcc => Sys2Proof.Machine.execRolAcc s
  | .rolZp op8 => Sys2Proof.Machine.execRolZp op8 s
  | .rolZpx op8 => Sys2Proof.Machine.execRolZpx op8 s
  | .rolAbs addr => Sys2Proof.Machine.execRolAbs addr s
  | .rolAbx addr => Sys2Proof.Machine.execRolAbx addr s
  | .rorAcc => Sys2Proof.Machine.execRorAcc s
  | .rorZp op8 => Sys2Proof.Machine.execRorZp op8 s
  | .rorZpx op8 => Sys2Proof.Machine.execRorZpx op8 s
  | .rorAbs addr => Sys2Proof.Machine.execRorAbs addr s
  | .rorAbx addr => Sys2Proof.Machine.execRorAbx addr s
  -- spec/45_logical.md
  | .andImm v => Sys2Proof.Machine.execAndImm v s
  | .andZp op8 => Sys2Proof.Machine.execAndZp op8 s
  | .andZpx op8 => Sys2Proof.Machine.execAndZpx op8 s
  | .andAbs addr => Sys2Proof.Machine.execAndAbs addr s
  | .andAbx addr => Sys2Proof.Machine.execAndAbx addr s
  | .andAby addr => Sys2Proof.Machine.execAndAby addr s
  | .andIzx op8 => Sys2Proof.Machine.execAndIzx op8 s
  | .andIzy op8 => Sys2Proof.Machine.execAndIzy op8 s
  | .oraImm v => Sys2Proof.Machine.execOraImm v s
  | .oraZp op8 => Sys2Proof.Machine.execOraZp op8 s
  | .oraZpx op8 => Sys2Proof.Machine.execOraZpx op8 s
  | .oraAbs addr => Sys2Proof.Machine.execOraAbs addr s
  | .oraAbx addr => Sys2Proof.Machine.execOraAbx addr s
  | .oraAby addr => Sys2Proof.Machine.execOraAby addr s
  | .oraIzx op8 => Sys2Proof.Machine.execOraIzx op8 s
  | .oraIzy op8 => Sys2Proof.Machine.execOraIzy op8 s
  | .eorImm v => Sys2Proof.Machine.execEorImm v s
  | .eorZp op8 => Sys2Proof.Machine.execEorZp op8 s
  | .eorZpx op8 => Sys2Proof.Machine.execEorZpx op8 s
  | .eorAbs addr => Sys2Proof.Machine.execEorAbs addr s
  | .eorAbx addr => Sys2Proof.Machine.execEorAbx addr s
  | .eorAby addr => Sys2Proof.Machine.execEorAby addr s
  | .eorIzx op8 => Sys2Proof.Machine.execEorIzx op8 s
  | .eorIzy op8 => Sys2Proof.Machine.execEorIzy op8 s
  | .bitZp op8 => Sys2Proof.Machine.execBitZp op8 s
  | .bitAbs addr => Sys2Proof.Machine.execBitAbs addr s
  -- spec/46_compare.md
  | .cmpImm v => Sys2Proof.Machine.execCmpImm v s
  | .cmpZp op8 => Sys2Proof.Machine.execCmpZp op8 s
  | .cmpZpx op8 => Sys2Proof.Machine.execCmpZpx op8 s
  | .cmpAbs addr => Sys2Proof.Machine.execCmpAbs addr s
  | .cmpAbx addr => Sys2Proof.Machine.execCmpAbx addr s
  | .cmpAby addr => Sys2Proof.Machine.execCmpAby addr s
  | .cmpIzx op8 => Sys2Proof.Machine.execCmpIzx op8 s
  | .cmpIzy op8 => Sys2Proof.Machine.execCmpIzy op8 s
  | .cpxImm v => Sys2Proof.Machine.execCpxImm v s
  | .cpxZp op8 => Sys2Proof.Machine.execCpxZp op8 s
  | .cpxAbs addr => Sys2Proof.Machine.execCpxAbs addr s
  | .cpyImm v => Sys2Proof.Machine.execCpyImm v s
  | .cpyZp op8 => Sys2Proof.Machine.execCpyZp op8 s
  | .cpyAbs addr => Sys2Proof.Machine.execCpyAbs addr s
  -- spec/47_branch.md
  | .bcc op8 => Sys2Proof.Machine.execBcc op8 s
  | .bcs op8 => Sys2Proof.Machine.execBcs op8 s
  | .beq op8 => Sys2Proof.Machine.execBeq op8 s
  | .bne op8 => Sys2Proof.Machine.execBne op8 s
  | .bmi op8 => Sys2Proof.Machine.execBmi op8 s
  | .bpl op8 => Sys2Proof.Machine.execBpl op8 s
  | .bvc op8 => Sys2Proof.Machine.execBvc op8 s
  | .bvs op8 => Sys2Proof.Machine.execBvs op8 s
  -- spec/48_jump_call.md
  | .jmpAbs addr => Sys2Proof.Machine.execJmpAbs addr s
  | .jmpInd addr => Sys2Proof.Machine.execJmpInd addr s
  | .jsr addr => Sys2Proof.Machine.execJsr addr s
  | .rts => Sys2Proof.Machine.execRts s
  | .rti => Sys2Proof.Machine.execRti s
  -- spec/49_stack_flags_system.md
  | .pha => Sys2Proof.Machine.execPha s
  | .php => Sys2Proof.Machine.execPhp s
  | .pla => Sys2Proof.Machine.execPla s
  | .plp => Sys2Proof.Machine.execPlp s
  | .clc => Sys2Proof.Machine.execClc s
  | .sec => Sys2Proof.Machine.execSec s
  | .cli => Sys2Proof.Machine.execCli s
  | .sei => Sys2Proof.Machine.execSei s
  | .cld => Sys2Proof.Machine.execCld s
  | .sed => Sys2Proof.Machine.execSed s
  | .clv => Sys2Proof.Machine.execClv s
  | .nop => Sys2Proof.Machine.execNop s
  | .brk => Sys2Proof.Machine.execBrk s
  -- spec/60_exceptions.md
  | .illegal op => Sys2Proof.Machine.execIllegal op s

end Sys2Proof.Machine
end

