-- ==== Sys2Proof/Machine/Loop.lean ====
section
/-! DEFINITION. Fetching an instruction and the body of `step` (spec/60_exceptions.md R232), and placing an instruction where
the next step fetches it. -/

namespace Sys2Proof.Machine

/-- The instruction at PC: the opcode byte, then the operand bytes its format has, in rising address order with PC
wrapping (R48, R71); bytes past the format are not looked at. -/
def fetchInstr (s : State) : Instr :=
  let (op, s₁) := fetch s
  let (b1, s₂) := fetch s₁
  let (b2, _) := fetch s₂
  instrOf op b1 b2

/-- `step()` (R232): refused before reset, no state change when halted, else one instruction to completion. -/
def stepBody (s : State) : Result :=
  match s.runState with
  | .unreset => .refused .beforeReset
  | .halted => .next s
  | .reset | .running | .interrupted => exec (fetchInstr s) s

/-- The run state in which a step fetches: kept where it is one, else Running with no halt reason. -/
def fetchable (s : State) : State :=
  match s.runState with
  | .unreset | .halted => (s.setRunState .running).setHaltReason none
  | .reset | .running | .interrupted => s

/-- The three bytes at PC written, in rising address order. -/
def placeBytes (b0 b1 b2 : Byte) (s : State) : State :=
  memWrite (memWrite (memWrite s s.pc b0) (s.pc + 1#16) b1) (s.pc + 2#16) b2

end Sys2Proof.Machine
end

