-- ==== Sys2Proof/Machine/Step.lean ====
section
/-! DEFINITION. One step of the machine (spec/60_exceptions.md R232), and the placing of a table word at PC. -/

namespace Sys2Proof.Machine

/-- `step()` of R232; the number of cycles it returns is what it adds to `cycles` (Machine/HostCalls.lean). -/
def step (s : State) : Host.Outcome State Fault Refusal := Sys2Proof.Machine.stepBody s

/-- `s` with the instruction whose first `nbits` bits are `w` and whose other bits are 0 stored at PC, in a run state in
which a step fetches (log entry 5). -/
def State.withFetchWord (s : State) (nbits w : Nat) : State :=
  Sys2Proof.Machine.placeBytes (Sys2Proof.tableByte nbits w 0) (Sys2Proof.tableByte nbits w 1) (Sys2Proof.tableByte nbits w 2)
    (Sys2Proof.Machine.fetchable s)

end Sys2Proof.Machine
end

