-- ==== Sys2Proof/Machine/HostCalls.lean ====
section
/-! DEFINITION. The calls the host makes between steps (spec/20_memory.md R45, spec/60_exceptions.md R224 to R231,
spec/70_reset_and_hazards.md R250 to R252), each a total function of the state, and all of them as one function. -/

namespace Sys2Proof.Machine

/-- What a call that reports a number answers. -/
abbrev Report := Host.Outcome (State × Nat) Fault Refusal

/-- `new(bus)` (R252): the memory is the bus's; every register is unspecified (R28), a free value of Config. P is a free
byte in the form R18 gives P in every state (log entry 3). -/
def newCore (bus : Memory) : State where
  a := Config.unspecifiedByte 0
  x := Config.unspecifiedByte 1
  y := Config.unspecifiedByte 2
  sp := Config.unspecifiedByte 3
  pc := Config.unspecifiedPc
  p := fromByte (Config.unspecifiedByte 4)
  cycles := Config.unspecifiedCycles
  runState := .unreset
  haltReason := none
  mem := bus

/-- `reset()` (R250): everything but memory gets its reset value; PC comes from the reset vector. -/
def resetCore (s : State) : State where
  a := Config.axyReset
  x := Config.axyReset
  y := Config.axyReset
  sp := Config.spReset
  pc := memRead16 s Config.resetVector
  p := Config.pReset
  cycles := 0
  runState := .reset
  haltReason := none
  mem := s.mem

/-- The bytes stored one after the other from `origin` on, addresses wrapping modulo 65,536 (R45). -/
def loadBytes (origin : Addr) (bytes : List Byte) (s : State) : State :=
  match bytes with
  | [] => s
  | b :: rest => loadBytes (origin + 1#16) rest (memWrite s origin b)

/-- `load(origin, bytes)` (R45): more than 65,536 bytes is refused. -/
def load (origin : Addr) (bytes : List Byte) (s : State) : Result :=
  if bytes.length ≤ Config.memSize then .next (loadBytes origin bytes s) else .refused (.imageTooLong bytes.length)

/-- `step()` with the number of cycles it returns (R232): what it added to `cycles`, 0 on a halted core and for
IllegalOpcode (R260; log entry 11). -/
def stepReport (s : State) : Report :=
  match step s with
  | .next t => .next (t, t.cycles - s.cycles)
  | .fault r => .fault r
  | .refused r => .refused r

/-- `trigger_irq()` (R225): refused before reset (R230), dropped with 0 cycles while I = 1, else the entry R226. -/
def triggerIrq (s : State) : Report :=
  if s.runState = .unreset then .refused .beforeReset
  else if s.flag .irqDisable then .next (s, 0)
  else .next (interruptEntry Config.irqVector s, Config.interruptEntryCycles)

/-- `trigger_nmi()` (R225): refused before reset (R230), else always the entry R226. -/
def triggerNmi (s : State) : Report :=
  if s.runState = .unreset then .refused .beforeReset
  else .next (interruptEntry Config.nmiVector s, Config.interruptEntryCycles)

/-- Why `run` stopped (R231). -/
inductive Stop where
  | halted (reason : Option HaltReason)
  | budgetExhausted
deriving DecidableEq, Repr

/-- The loop of `run` (R231) with `used` cycles consumed so far, at most `fuel` steps. -/
def runLoop (fuel budget used : Nat) (s : State) : Host.Outcome (State × Nat × Stop) Fault Refusal :=
  if s.runState = .halted then .next (s, used, .halted s.haltReason)
  else if budget ≤ used then .next (s, used, .budgetExhausted)
  else
    match fuel with
    | 0 => .next (s, used, .budgetExhausted)
    | fuel + 1 =>
      match step s with
      | .next t => runLoop fuel budget (used + (t.cycles - s.cycles)) t
      | .fault r => .fault r
      | .refused r => .refused r

/-- `run(cycle_budget)` (R231). `budget` steps are enough: a step that does not halt uses at least one cycle
(log entry 12). -/
def run (budget : Nat) (s : State) : Host.Outcome (State × Nat × Stop) Fault Refusal :=
  if s.runState = .unreset then .refused .beforeReset else runLoop budget budget 0 s

/-- The loop of `run` counting 1 for each step (R231, "An instruction budget is the same loop counting 1 per `step`"). -/
def runInstructionsLoop (budget used : Nat) (s : State) : Host.Outcome (State × Nat × Stop) Fault Refusal :=
  if s.runState = .halted then .next (s, used, .halted s.haltReason)
  else
    match budget with
    | 0 => .next (s, used, .budgetExhausted)
    | budget + 1 =>
      match step s with
      | .next t => runInstructionsLoop budget (used + 1) t
      | .fault r => .fault r
      | .refused r => .refused r

/-- `run` with an instruction budget (R231). -/
def runInstructions (budget : Nat) (s : State) : Host.Outcome (State × Nat × Stop) Fault Refusal :=
  if s.runState = .unreset then .refused .beforeReset else runInstructionsLoop budget 0 s

/-- The calls that change a core that exists (R224, R228, R231, R250, R45). -/
inductive HostCall where
  | reset
  | step
  | run (budget : Nat)
  | triggerIrq
  | triggerNmi
  | load (origin : Addr) (bytes : List Byte)
deriving DecidableEq, Repr

/-- One call (R228: calls are made one at a time and each completes before the next). The calls that report a number of
cycles have functions of their own above; here only the state they leave. -/
def call (c : HostCall) (s : State) : Result :=
  match c with
  | .reset => .next (resetCore s)
  | .step => step s
  | .run budget =>
    match run budget s with
    | .next (t, _, _) => .next t
    | .fault r => .fault r
    | .refused r => .refused r
  | .triggerIrq =>
    match triggerIrq s with
    | .next (t, _) => .next t
    | .fault r => .fault r
    | .refused r => .refused r
  | .triggerNmi =>
    match triggerNmi s with
    | .next (t, _) => .next t
    | .fault r => .fault r
    | .refused r => .refused r
  | .load origin bytes => load origin bytes s

/-- A sequence of calls, stopping at the first that is refused. -/
def calls (cs : List HostCall) (s : State) : Result :=
  match cs with
  | [] => .next s
  | c :: cs =>
    match call c s with
    | .next t => calls cs t
    | .fault r => .fault r
    | .refused r => .refused r

/-- The accessors of R27: they read and change nothing. The flag byte is all 8 bits of P. -/
structure Accessors where
  pc : Addr
  a : Byte
  x : Byte
  y : Byte
  sp : Byte
  flagByte : Byte
  runState : RunState
  haltReason : Option HaltReason
deriving DecidableEq, Repr

/-- R27, all registers at once. -/
def accessors (s : State) : Accessors := ⟨s.pc, s.a, s.x, s.y, s.sp, s.p, s.runState, s.haltReason⟩

/-- R27: a direct bus read by the caller is `MemRead`. -/
def peek (s : State) (addr : Addr) : Byte := memRead s addr

end Sys2Proof.Machine
end

