-- ==== Sys2Proof/Machine/Bus.lean ====
section
/-! DEFINITION. The exact, ordered list of bus accesses of a step and of the host operations (spec/20_memory.md R53,
spec/95_test_vectors.md 2.10), as functions of the state before it. -/

namespace Sys2Proof.Machine

/-- One bus access: a read that returns a byte, or a write of a byte. -/
inductive Access where
  | read (addr : Addr) (v : Byte)
  | write (addr : Addr) (v : Byte)
deriving DecidableEq, Repr

/-- A read of `addr` in `s`. -/
def readAccess (s : State) (addr : Addr) : Access := .read addr (memRead s addr)

/-- The fetches of an instruction of `len` bytes, opcode first (R48). -/
def fetchAccesses (len : Nat) (s : State) : List Access :=
  (List.range len).map (fun k => readAccess s (s.pc + BitVec.ofNat 16 k))

/-- The pointer reads of the resolver, low byte first (R100 to R102, R106). -/
def pointerAccesses (o : Operand) (s : State) : List Access :=
  match o with
  | .ind ptr => [readAccess s ptr, readAccess s (indirectHigh ptr)]
  | .izx op8 => [readAccess s (zeroPage (op8 + s.x)), readAccess s (zeroPage (op8 + s.x + 1#8))]
  | .izy op8 => [readAccess s (zeroPage op8), readAccess s (zeroPage (op8 + 1#8))]
  | .imp | .acc | .imm _ | .zp _ | .zpx _ | .zpy _ | .abs _ | .abx _ | .aby _ | .rel _ => []

/-- The read of the operand: none for A, and none beyond the fetch of the operand byte for an immediate (R96, R105). -/
def operandReads (o : Operand) (s : State) : List Access :=
  match o with
  | .acc | .imm _ => []
  | o => [readAccess s (resolve o s).ea]

/-- The read and the write of a read-modify-write instruction; none for the accumulator form (R154). -/
def modifyAccesses (o : Operand) (f : Byte → Byte → Byte × Byte) (s : State) : List Access :=
  match o with
  | .acc => []
  | o => [readAccess s (resolve o s).ea, .write (resolve o s).ea (f (operandByte o s) s.p).1]

/-- The operation's own accesses, in a state whose PC is past the instruction (R53, R105 and each instruction's rule). -/
def operationAccesses (i : Instr) (s : State) : List Access :=
  match i.mnemonic with
  | .lda | .ldx | .ldy | .adc | .sbc | .and | .ora | .eor | .bit | .cmp | .cpx | .cpy => operandReads i.operand s
  | .sta => [.write (resolve i.operand s).ea s.a]
  | .stx => [.write (resolve i.operand s).ea s.x]
  | .sty => [.write (resolve i.operand s).ea s.y]
  | .inc => modifyAccesses i.operand incByte s
  | .dec => modifyAccesses i.operand decByte s
  | .asl => modifyAccesses i.operand shiftLeft s
  | .lsr => modifyAccesses i.operand shiftRight s
  | .rol => modifyAccesses i.operand rotateLeft s
  | .ror => modifyAccesses i.operand rotateRight s
  | .pha => [.write (stackAddr s.sp) s.a]
  | .php => [.write (stackAddr s.sp) (pushByteSoftware s.p)]
  | .pla | .plp => [readAccess s (stackAddr (s.sp + 1#8))]
  | .jsr => [.write (stackAddr s.sp) (hiByte (s.pc - 1#16)), .write (stackAddr (s.sp - 1#8)) (loByte (s.pc - 1#16))]
  | .rts => [readAccess s (stackAddr (s.sp + 1#8)), readAccess s (stackAddr (s.sp + 2#8))]
  | .rti => [readAccess s (stackAddr (s.sp + 1#8)), readAccess s (stackAddr (s.sp + 2#8)), readAccess s (stackAddr (s.sp + 3#8))]
  | .tax | .tay | .txa | .tya | .tsx | .txs | .inx | .iny | .dex | .dey => []
  | .bcc | .bcs | .beq | .bne | .bmi | .bpl | .bvc | .bvs | .jmp => []
  | .clc | .sec | .cli | .sei | .cld | .sed | .clv | .nop | .brk | .illegal => []

/-- The accesses of one instruction fetched at PC: fetches, pointer reads, then the operation's own (R53). -/
def instrAccesses (i : Instr) (s : State) : List Access :=
  let t := s.afterFetch i.operand.length
  fetchAccesses i.operand.length s ++ pointerAccesses i.operand t ++ operationAccesses i t

/-- The accesses of one `step`: none on a core that does not fetch. -/
def stepAccesses (s : State) : List Access :=
  match s.runState with
  | .unreset | .halted => []
  | .reset | .running | .interrupted => instrAccesses (fetchInstr s) s

/-- The accesses of an interrupt entry (R226): three writes, then the vector, low byte first. -/
def entryAccesses (vector : Addr) (s : State) : List Access :=
  let t := push (pushByteInterrupt s.p) (push (loByte s.pc) (push (hiByte s.pc) s))
  [.write (stackAddr s.sp) (hiByte s.pc), .write (stackAddr (s.sp - 1#8)) (loByte s.pc),
    .write (stackAddr (s.sp - 2#8)) (pushByteInterrupt s.p), readAccess t vector, readAccess t (vector + 1#16)]

/-- The accesses of `reset` (R250): the two bytes of the vector. -/
def resetAccesses (s : State) : List Access :=
  [readAccess s Config.resetVector, readAccess s (Config.resetVector + 1#16)]

/-- Memory after the writes of a list of accesses, in order. -/
def applyWrites (as : List Access) (m : Memory) : Memory :=
  match as with
  | [] => m
  | .read _ _ :: as => applyWrites as m
  | .write addr v :: as => applyWrites as (m.set addr.toNat v)

/-- Every read of the list returns what memory holds at that point of the list (R55). -/
def readsAgree (as : List Access) (m : Memory) : Bool :=
  match as with
  | [] => true
  | .read addr v :: as => (m.get addr.toNat == v) && readsAgree as m
  | .write addr v :: as => readsAgree as (m.set addr.toNat v)

end Sys2Proof.Machine
end

