-- ==== Sys2Proof/Safety.lean ====
section
/-! DEFINITION. What counts as a good state and a safe run, in the terms the statements use. -/

namespace Sys2Proof

open Sys2Proof.Machine

/-- R18: P reads `N V 1 0 D I Z C`. -/
abbrev StatusForm (s : State) : Prop := s.flag .unused = true ∧ s.flag .brk = false

/-- R23: there is a halt reason exactly while the core is halted. -/
abbrev HaltForm (s : State) : Prop := (s.runState = .halted) ↔ (s.haltReason.isSome = true)

/-- Memory is in its canonical form (R24, R40). -/
abbrev MemoryForm (s : State) : Prop := s.mem.wf = true

/-- The invariant of the machine: every state a run reaches has it. -/
structure GoodState (s : State) : Prop where
  status : StatusForm s
  halt : HaltForm s
  memory : MemoryForm s

/-- The core has been reset, so that a step has a meaning (R230, R253). -/
abbrev Started (s : State) : Prop := s.runState ≠ .unreset

/-- A step executes an instruction (R22, R230). -/
abbrev Fetching (s : State) : Prop := s.runState ≠ .unreset ∧ s.runState ≠ .halted

/-- Two states hold the same byte at every address. -/
abbrev SameMemory (s t : State) : Prop := ∀ addr : Addr, memRead t addr = memRead s addr

/-- Every bit of P outside `fs` is the same (R17: no other flag changes). -/
abbrev FlagsKeptBut (fs : List Flag) (s t : State) : Prop := ∀ f : Flag, f ∉ fs → t.flag f = s.flag f

/-! ### Cycle accounting, from the descriptor (R260) -/

/-- `base_cycles` of an instruction's opcode; 0 for an illegal one (R260). -/
def baseCycles (i : Instr) : Nat := ((descriptor i.opcode).map Descriptor.baseCycles).getD 0

/-- `page_cross_extra` of an instruction's opcode. -/
def pageCrossExtra (i : Instr) : Bool := ((descriptor i.opcode).map Descriptor.pageCrossExtra).getD false

/-- The flag and the value of it on which a branch is taken (R181 to R188). -/
def branchCondition (m : Mnemonic) : Option (Flag × Bool) :=
  match m with
  | .bcc => some (.carry, false)
  | .bcs => some (.carry, true)
  | .beq => some (.zero, true)
  | .bne => some (.zero, false)
  | .bmi => some (.negative, true)
  | .bpl => some (.negative, false)
  | .bvc => some (.overflow, false)
  | .bvs => some (.overflow, true)
  | _ => none

/-- The state an instruction's own operation starts from: PC past the instruction. -/
abbrev fetched (i : Instr) (s : State) : State := s.afterFetch i.operand.length

/-- The operand byte an instruction reads when it runs in `s` (R105). -/
abbrev operandOf (i : Instr) (s : State) : Byte := operandByte i.operand (fetched i s)

/-- The effective address an instruction resolves when it runs in `s` (R90). -/
abbrev addressOf (i : Instr) (s : State) : Addr := (resolve i.operand (fetched i s)).ea

/-- `(1 if page_cross_extra and crossed)` of R260. -/
def pageCrossCycles (i : Instr) (s : State) : Nat :=
  if pageCrossExtra i = true ∧ (resolve i.operand (fetched i s)).crossed = true then 1 else 0

/-- The branch extra of R180: 0 not taken, 1 taken in the page of the next instruction, 2 taken to another page. -/
def branchExtra (i : Instr) (s : State) : Nat :=
  match branchCondition i.mnemonic with
  | none => 0
  | some (f, v) =>
    if s.flag f = v then 1 + (if hiByte (fetched i s).pc ≠ hiByte (addressOf i s) then 1 else 0) else 0

/-- The cycle count of an instruction that runs in `s` (R260). -/
def instrCycles (i : Instr) (s : State) : Nat := baseCycles i + pageCrossCycles i s + branchExtra i s

/-! ### Who may write what (R10 to R17) -/

/-- The instructions that write each flag (R17); nothing writes B or U. -/
def flagWriters (f : Flag) : List Mnemonic :=
  match f with
  | .carry => [.adc, .sbc, .cmp, .cpx, .cpy, .asl, .lsr, .rol, .ror, .clc, .sec, .plp, .rti]
  | .zero | .negative =>
    [.lda, .ldx, .ldy, .tax, .tay, .txa, .tya, .tsx, .pla, .adc, .sbc, .and, .ora, .eor, .bit, .cmp, .cpx, .cpy, .inc,
      .inx, .iny, .dec, .dex, .dey, .asl, .lsr, .rol, .ror, .plp, .rti]
  | .irqDisable => [.sei, .cli, .plp, .rti]
  | .decimal => [.sed, .cld, .plp, .rti]
  | .overflow => [.adc, .sbc, .bit, .clv, .plp, .rti]
  | .brk | .unused => []

/-- The instructions that write A (R10); the shifts only in their accumulator form. -/
def writesA (i : Instr) : Bool :=
  match i.mnemonic with
  | .lda | .txa | .tya | .pla | .adc | .sbc | .and | .ora | .eor => true
  | .asl | .lsr | .rol | .ror => i.operand == .acc
  | _ => false

/-- The instructions that write X (R11). -/
def writersX : List Mnemonic := [.ldx, .tax, .tsx, .inx, .dex]

/-- The instructions that write Y (R12). -/
def writersY : List Mnemonic := [.ldy, .tay, .iny, .dey]

/-- The instructions that write SP (R13): TXS, and those that push or pull. -/
def writersSp : List Mnemonic := [.txs, .pha, .php, .pla, .plp, .jsr, .rts, .rti]

/-- The instructions that write PC other than by fetching (R15), and the illegal opcode, which puts it back. -/
def writersPc : List Mnemonic :=
  [.bcc, .bcs, .beq, .bne, .bmi, .bpl, .bvc, .bvs, .jmp, .jsr, .rts, .rti, .illegal]

/-- The addresses an instruction stores to, by its rule: the operand's address of a store or a read-modify-write of
memory, the stack slots of a push. -/
def storedAddresses (i : Instr) (s : State) : List Addr :=
  match i.mnemonic with
  | .sta | .stx | .sty | .inc | .dec => [addressOf i s]
  | .asl | .lsr | .rol | .ror => if i.operand = .acc then [] else [addressOf i s]
  | .pha | .php => [stackAddr s.sp]
  | .jsr => [stackAddr s.sp, stackAddr (s.sp - 1#8)]
  | _ => []

/-- What every executed instruction other than a branch, jump, call, return, BRK or illegal opcode does around its own
effect: it completes, PC goes past it, the core is Running, its cycles are counted (R14, R232, R260). -/
structure Completes (i : Instr) (s t : State) : Prop where
  answers : exec i s = .next t
  pc : t.pc = s.pc + BitVec.ofNat 16 i.operand.length
  running : t.runState = .running
  reason : t.haltReason = s.haltReason
  cycles : t.cycles = s.cycles + instrCycles i s

/-- What the table holds for a mnemonic: opcode, mode, length, base cycles, page-cross flag (R75). -/
def encodings (m : Mnemonic) : List (Byte × Mode × Nat × Nat × Bool) :=
  (opcodeTable.filter (fun r => r.desc.mnemonic == m)).map
    (fun r => (r.opcode, r.desc.mode, 1 + r.desc.mode.width, r.desc.baseCycles, r.desc.pageCrossExtra))

end Sys2Proof
end

