-- ==== Sys2Proof/Certificates/Slice0/Obligations.lean ====
section
/-! DEFINITION. The statements for the provers. Each docstring names the rule or section of spec/ it comes from and, where it is
about instructions, the constructors of `Instr` it is about. -/

open Sys2Proof Sys2Proof.Machine

namespace Sys2Proof

/-- R19: Z and N from `v`, every other bit of P as before. -/
abbrev ZeroNegativeFrom (v : Byte) (s t : State) : Prop :=
  t.flag .zero = decide (v = 0#8) ∧ t.flag .negative = v.getLsbD 7 ∧ FlagsKeptBut [.zero, .negative] s t

/-- Every byte of memory outside the listed addresses reads as before. -/
abbrev SameMemoryBut (as : List Addr) (s t : State) : Prop := ∀ addr : Addr, addr ∉ as → memRead t addr = memRead s addr

/-- A branch on flag `f` being `v` (R180): PC, the cycles and the run state change and nothing else; the target is the
next instruction's address plus the signed operand byte. -/
def BranchesOn (f : Flag) (v : Bool) (i : Instr) (op8 : Byte) (s : State) : Prop :=
  exec i s = .next { s with
    pc := if s.flag f = v then s.pc + 2#16 + sext16 op8 else s.pc + 2#16
    runState := .running
    cycles := s.cycles +
      (if s.flag f = v then (if hiByte (s.pc + 2#16) = hiByte (s.pc + 2#16 + sext16 op8) then 3 else 4) else 2) }

/-- An instruction that writes one flag and nothing else (R204 to R210): 1 byte, 2 cycles. -/
def WritesFlag (f : Flag) (v : Bool) (i : Instr) (s : State) : Prop :=
  ∃ t, exec i s = .next t ∧ t.flag f = v ∧ FlagsKeptBut [f] s t ∧ t.pc = s.pc + 1#16 ∧ t.cycles = s.cycles + 2 ∧
    t.runState = .running ∧ t.haltReason = s.haltReason ∧ t.a = s.a ∧ t.x = s.x ∧ t.y = s.y ∧ t.sp = s.sp ∧
    SameMemory s t

/-- Where a read-modify-write instruction puts its result `r` (R105, R154): A for the accumulator form, else the byte
at its address; X, Y and SP are kept, and so is everything it does not write. -/
def PutsResult (i : Instr) (s t : State) (r : Byte) : Prop :=
  (if i.operand = .acc then t.a = r ∧ SameMemory s t
   else t.a = s.a ∧ memRead t (addressOf i s) = r ∧ SameMemoryBut [addressOf i s] s t) ∧
  t.x = s.x ∧ t.y = s.y ∧ t.sp = s.sp

/-- What an interrupt entry through `vector` leaves (R226). -/
def EntersThrough (vector : Addr) (s t : State) : Prop :=
  memRead t (stackAddr s.sp) = hiByte s.pc ∧ memRead t (stackAddr (s.sp - 1#8)) = loByte s.pc ∧
  memRead t (stackAddr (s.sp - 2#8)) = (s.p &&& 0xEF#8) ||| 0x20#8 ∧
  SameMemoryBut [stackAddr s.sp, stackAddr (s.sp - 1#8), stackAddr (s.sp - 2#8)] s t ∧
  t.sp = s.sp - 3#8 ∧ t.flag .irqDisable = true ∧ FlagsKeptBut [.irqDisable] s t ∧
  t.pc = word (memRead s (vector + 1#16)) (memRead s vector) ∧
  t.cycles = s.cycles + 7 ∧ t.runState = .interrupted ∧ t.haltReason = none ∧
  t.a = s.a ∧ t.x = s.x ∧ t.y = s.y

end Sys2Proof

/-- R232 with R48 and R14 (60_exceptions.md section 1): where a core that has been reset and is not halted finds, in
the bytes at PC (addresses wrapping modulo 65,536), a well-formed instruction, a step is `exec` of it in the same
state. Nothing stands around `exec`: the advance of PC, the run state and the cycles are part of each meaning. -/
def Obligations.StepRunsTheDecodedInstruction : Prop :=
  ∀ (s : State) (i : Instr) (rest : List Byte), Fetching s →
    decode [memRead s s.pc, memRead s (s.pc + 1#16), memRead s (s.pc + 2#16)] = .ok (i, rest) → i.wf = true →
    step s = exec i s

/-- R75, R80: bytes written out from the opcode map decode to the instruction they stand for, at least one for each
family file, with the operand low byte first (R47). -/
def Obligations.WrittenOutBytesDecode : Prop :=
  decode [0xA9, 0x10] = .ok (.ldaImm 0x10, []) ∧ decode [0xB6, 0x10] = .ok (.ldxZpy 0x10, []) ∧
  decode [0x8D, 0x00, 0x02] = .ok (.staAbs 0x0200, []) ∧ decode [0xBA] = .ok (.tsx, []) ∧
  decode [0x61, 0x20] = .ok (.adcIzx 0x20, []) ∧ decode [0xF1, 0x86] = .ok (.sbcIzy 0x86, []) ∧
  decode [0xFE, 0xFF, 0x12] = .ok (.incAbx 0x12FF, []) ∧ decode [0x6E, 0x00, 0x03] = .ok (.rorAbs 0x0300, []) ∧
  decode [0x2C, 0x34, 0x12] = .ok (.bitAbs 0x1234, []) ∧ decode [0xD9, 0x34, 0x12] = .ok (.cmpAby 0x1234, []) ∧
  decode [0xD0, 0xFA] = .ok (.bne 0xFA, []) ∧ decode [0x6C, 0x20, 0x01] = .ok (.jmpInd 0x0120, []) ∧
  decode [0x20, 0x00, 0x90] = .ok (.jsr 0x9000, []) ∧ decode [0x40] = .ok (.rti, []) ∧
  decode [0x28] = .ok (.plp, []) ∧ decode [0x00] = .ok (.brk, []) ∧ decode [0x80, 0x12] = .ok (.illegal 0x80, [0x12])

/-- R70, R71, R73, R75 (30_encoding.md): for every well-formed instruction, with every operand at every value,
decoding the bytes the encoder writes gives the instruction back and leaves the bytes that follow. -/
def Obligations.DecodeInvertsEncode : Prop :=
  ∀ (i : Instr) (rest : List Byte), i.wf = true → decode (encode i ++ rest) = .ok (i, rest)

/-- R70, R71, R77 (30_encoding.md): whatever the decoder reads is well formed and encodes to exactly the bytes it was
read from, so no two encodings stand for one instruction. -/
def Obligations.EncodeInvertsDecode : Prop :=
  ∀ (bytes rest : List Byte) (i : Instr), decode bytes = .ok (i, rest) → i.wf = true ∧ encode i ++ rest = bytes

/-- R74, R75, R77: 151 official opcodes, no two alike, and 105 illegal ones; an opcode has no descriptor exactly when
it is on the list of R77. -/
def Obligations.OpcodeMapIsTotalAndDisjoint : Prop :=
  opcodeTable.length = 151 ∧ illegalOpcodes.length = 105 ∧ opcodeTable.Pairwise (fun r q => r.opcode ≠ q.opcode) ∧
  ∀ op : Byte, descriptor op = none ↔ isIllegalOpcode op = true

/-- R70, R74, R79 (30_encoding.md): the opcode byte alone selects the mnemonic, the addressing mode and the length of
the instruction, and its operand bytes are the next bytes in memory; an opcode with no descriptor is the illegal
instruction of that byte. -/
def Obligations.DescriptorSelectsInstruction : Prop :=
  ∀ op b1 b2 : Byte,
    match descriptor op with
    | none => instrOf op b1 b2 = .illegal op
    | some d =>
      (instrOf op b1 b2).mnemonic = d.mnemonic ∧ (instrOf op b1 b2).operand.mode = d.mode ∧
      encode (instrOf op b1 b2) = op :: [b1, b2].take d.mode.width

/-- R110, R111, R112: LDA, LDX and LDY in every form copy the operand to their register and set Z and N from it; every
other register, flag and byte of memory is kept. Constructors: ldaImm, ldaZp, ldaZpx, ldaAbs, ldaAbx, ldaAby, ldaIzx,
ldaIzy, ldxImm, ldxZp, ldxZpy, ldxAbs, ldxAby, ldyImm, ldyZp, ldyZpx, ldyAbs, ldyAbx. -/
def Obligations.LoadsCopyTheOperand : Prop :=
  encodings .lda = [(0xA9, .imm, 2, 2, false), (0xA5, .zp, 2, 3, false), (0xB5, .zpx, 2, 4, false),
    (0xAD, .abs, 3, 4, false), (0xBD, .abx, 3, 4, true), (0xB9, .aby, 3, 4, true), (0xA1, .izx, 2, 6, false),
    (0xB1, .izy, 2, 5, true)] ∧
  encodings .ldx = [(0xA2, .imm, 2, 2, false), (0xA6, .zp, 2, 3, false), (0xB6, .zpy, 2, 4, false),
    (0xAE, .abs, 3, 4, false), (0xBE, .aby, 3, 4, true)] ∧
  encodings .ldy = [(0xA0, .imm, 2, 2, false), (0xA4, .zp, 2, 3, false), (0xB4, .zpx, 2, 4, false),
    (0xAC, .abs, 3, 4, false), (0xBC, .abx, 3, 4, true)] ∧
  ∀ (i : Instr) (s : State),
    (i.mnemonic = .lda → ∃ t, Completes i s t ∧ t.a = operandOf i s ∧ ZeroNegativeFrom (operandOf i s) s t ∧
      t.x = s.x ∧ t.y = s.y ∧ t.sp = s.sp ∧ SameMemory s t) ∧
    (i.mnemonic = .ldx → ∃ t, Completes i s t ∧ t.x = operandOf i s ∧ ZeroNegativeFrom (operandOf i s) s t ∧
      t.a = s.a ∧ t.y = s.y ∧ t.sp = s.sp ∧ SameMemory s t) ∧
    (i.mnemonic = .ldy → ∃ t, Completes i s t ∧ t.y = operandOf i s ∧ ZeroNegativeFrom (operandOf i s) s t ∧
      t.a = s.a ∧ t.x = s.x ∧ t.sp = s.sp ∧ SameMemory s t)

/-- R113, R114, R115: STA, STX and STY in every form write their register at the effective address, without reading
it; every other byte, every register and all of P are kept. Constructors: staZp, staZpx, staAbs, staAbx, staAby,
staIzx, staIzy, stxZp, stxZpy, stxAbs, styZp, styZpx, styAbs. -/
def Obligations.StoresWriteOneByte : Prop :=
  encodings .sta = [(0x85, .zp, 2, 3, false), (0x95, .zpx, 2, 4, false), (0x8D, .abs, 3, 4, false),
    (0x9D, .abx, 3, 5, false), (0x99, .aby, 3, 5, false), (0x81, .izx, 2, 6, false), (0x91, .izy, 2, 6, false)] ∧
  encodings .stx = [(0x86, .zp, 2, 3, false), (0x96, .zpy, 2, 4, false), (0x8E, .abs, 3, 4, false)] ∧
  encodings .sty = [(0x84, .zp, 2, 3, false), (0x94, .zpx, 2, 4, false), (0x8C, .abs, 3, 4, false)] ∧
  ∀ (i : Instr) (s : State) (v : Byte),
    (i.mnemonic = .sta ∧ v = s.a ∨ i.mnemonic = .stx ∧ v = s.x ∨ i.mnemonic = .sty ∧ v = s.y) →
    operationAccesses i (fetched i s) = [.write (addressOf i s) v] ∧
    ∃ t, Completes i s t ∧ memRead t (addressOf i s) = v ∧ SameMemoryBut [addressOf i s] s t ∧
      t.p = s.p ∧ t.a = s.a ∧ t.x = s.x ∧ t.y = s.y ∧ t.sp = s.sp

/-- R116 to R121: the six register transfers; TXS is the one that writes no flag. Constructors: tax, tay, txa, tya,
tsx, txs. -/
def Obligations.TransfersCopyRegisters : Prop :=
  encodings .tax = [(0xAA, .imp, 1, 2, false)] ∧
  encodings .tay = [(0xA8, .imp, 1, 2, false)] ∧
  encodings .txa = [(0x8A, .imp, 1, 2, false)] ∧
  encodings .tya = [(0x98, .imp, 1, 2, false)] ∧
  encodings .tsx = [(0xBA, .imp, 1, 2, false)] ∧
  encodings .txs = [(0x9A, .imp, 1, 2, false)] ∧
  ∀ s : State,
    (∃ t, Completes .tax s t ∧ t.x = s.a ∧ ZeroNegativeFrom s.a s t ∧ t.a = s.a ∧ t.y = s.y ∧ t.sp = s.sp ∧ SameMemory s t) ∧
    (∃ t, Completes .tay s t ∧ t.y = s.a ∧ ZeroNegativeFrom s.a s t ∧ t.a = s.a ∧ t.x = s.x ∧ t.sp = s.sp ∧ SameMemory s t) ∧
    (∃ t, Completes .txa s t ∧ t.a = s.x ∧ ZeroNegativeFrom s.x s t ∧ t.x = s.x ∧ t.y = s.y ∧ t.sp = s.sp ∧ SameMemory s t) ∧
    (∃ t, Completes .tya s t ∧ t.a = s.y ∧ ZeroNegativeFrom s.y s t ∧ t.x = s.x ∧ t.y = s.y ∧ t.sp = s.sp ∧ SameMemory s t) ∧
    (∃ t, Completes .tsx s t ∧ t.x = s.sp ∧ ZeroNegativeFrom s.sp s t ∧ t.a = s.a ∧ t.y = s.y ∧ t.sp = s.sp ∧ SameMemory s t) ∧
    (∃ t, Completes .txs s t ∧ t.sp = s.x ∧ t.p = s.p ∧ t.a = s.a ∧ t.x = s.x ∧ t.y = s.y ∧ SameMemory s t)

/-- R130: the result is the exact sum modulo 256, the carry out is 1 exactly when the sum exceeds 255, and the
overflow bit, in both of its formulas, is 1 exactly when the operands agree in bit 7 and the result does not, that is
when the signed sum lies outside -128 to +127. -/
def Obligations.AdderLaw : Prop :=
  ∀ (a m : Byte) (c : Bool),
    (addCore a m c).r.toNat = (a.toNat + m.toNat + c.toNat) % 256 ∧
    ((addCore a m c).cout = true ↔ 255 < a.toNat + m.toNat + c.toNat) ∧
    (addCore a m c).vout = ((a ^^^ (addCore a m c).r) &&& (m ^^^ (addCore a m c).r)).getLsbD 7 ∧
    (addCore a m c).vout = (~~~(a ^^^ m) &&& (a ^^^ (addCore a m c).r)).getLsbD 7 ∧
    ((addCore a m c).vout = true ↔ a.getLsbD 7 = m.getLsbD 7 ∧ (addCore a m c).r.getLsbD 7 ≠ a.getLsbD 7) ∧
    ((addCore a m c).vout = true ↔ a.toInt + m.toInt + c.toNat < -128 ∨ 127 < a.toInt + m.toInt + c.toNat)

/-- R131: ADC in every form adds the operand and C to A modulo 256; C is the unsigned carry, V the signed overflow, Z
and N follow the result; everything else is kept. Constructors: adcImm, adcZp, adcZpx, adcAbs, adcAbx, adcAby, adcIzx,
adcIzy. -/
def Obligations.AdcAddsWithCarry : Prop :=
  encodings .adc = [(0x69, .imm, 2, 2, false), (0x65, .zp, 2, 3, false), (0x75, .zpx, 2, 4, false),
    (0x6D, .abs, 3, 4, false), (0x7D, .abx, 3, 4, true), (0x79, .aby, 3, 4, true), (0x61, .izx, 2, 6, false),
    (0x71, .izy, 2, 5, true)] ∧
  ∀ (i : Instr) (s : State), i.mnemonic = .adc →
    ∃ t, Completes i s t ∧
      t.a.toNat = (s.a.toNat + (operandOf i s).toNat + (s.flag .carry).toNat) % 256 ∧
      (t.flag .carry = true ↔ 255 < s.a.toNat + (operandOf i s).toNat + (s.flag .carry).toNat) ∧
      (t.flag .overflow = true ↔ s.a.toInt + (operandOf i s).toInt + (s.flag .carry).toNat < -128 ∨
        127 < s.a.toInt + (operandOf i s).toInt + (s.flag .carry).toNat) ∧
      t.flag .zero = decide (t.a = 0#8) ∧ t.flag .negative = t.a.getLsbD 7 ∧
      FlagsKeptBut [.carry, .overflow, .zero, .negative] s t ∧
      t.x = s.x ∧ t.y = s.y ∧ t.sp = s.sp ∧ SameMemory s t

/-- R133: SBC in every form subtracts the operand and the borrow 1 - C from A modulo 256; C is "no borrow out", V the
signed overflow of the difference, Z and N follow the result; everything else is kept. Constructors: sbcImm, sbcZp,
sbcZpx, sbcAbs, sbcAbx, sbcAby, sbcIzx, sbcIzy. -/
def Obligations.SbcSubtractsWithBorrow : Prop :=
  encodings .sbc = [(0xE9, .imm, 2, 2, false), (0xE5, .zp, 2, 3, false), (0xF5, .zpx, 2, 4, false),
    (0xED, .abs, 3, 4, false), (0xFD, .abx, 3, 4, true), (0xF9, .aby, 3, 4, true), (0xE1, .izx, 2, 6, false),
    (0xF1, .izy, 2, 5, true)] ∧
  ∀ (i : Instr) (s : State), i.mnemonic = .sbc →
    ∃ t, Completes i s t ∧
      t.a = s.a - operandOf i s - (if s.flag .carry then 0#8 else 1#8) ∧
      (t.flag .carry = true ↔ (operandOf i s).toNat + (1 - (s.flag .carry).toNat) ≤ s.a.toNat) ∧
      (t.flag .overflow = true ↔ s.a.toInt - (operandOf i s).toInt - (1 - ((s.flag .carry).toNat : Int)) < -128 ∨
        127 < s.a.toInt - (operandOf i s).toInt - (1 - ((s.flag .carry).toNat : Int))) ∧
      t.flag .zero = decide (t.a = 0#8) ∧ t.flag .negative = t.a.getLsbD 7 ∧
      FlagsKeptBut [.carry, .overflow, .zero, .negative] s t ∧
      t.x = s.x ∧ t.y = s.y ∧ t.sp = s.sp ∧ SameMemory s t

/-- R132, the spec's decision D2 (log entry 17), and the D row of R17: ADC and SBC give the same result whatever D
holds, and no instruction but PHP, which pushes it, does anything that depends on D: changing D before the instruction
changes at most D after it. -/
def Obligations.DecimalFlagIsOnlyStored : Prop :=
  ∀ (i : Instr) (s t : State) (b : Bool), exec i s = .next t →
    ((i.mnemonic = .adc ∨ i.mnemonic = .sbc) →
      exec i (s.setFlag .decimal b) = .next (t.setFlag .decimal b)) ∧
    (i.mnemonic ≠ .php →
      ∃ u, exec i (s.setFlag .decimal b) = .next u ∧ u.setFlag .decimal false = t.setFlag .decimal false)

/-- R140, R143: INC and DEC in every form replace the byte at their address by it plus or minus 1 modulo 256, with one
read and then one write of that address, and set Z and N from the new byte; A, X, Y, SP, C, V and every other byte are
kept. Constructors: incZp, incZpx, incAbs, incAbx, decZp, decZpx, decAbs, decAbx. -/
def Obligations.IncDecMemoryByOne : Prop :=
  encodings .inc = [(0xE6, .zp, 2, 5, false), (0xF6, .zpx, 2, 6, false), (0xEE, .abs, 3, 6, false),
    (0xFE, .abx, 3, 7, false)] ∧
  encodings .dec = [(0xC6, .zp, 2, 5, false), (0xD6, .zpx, 2, 6, false), (0xCE, .abs, 3, 6, false),
    (0xDE, .abx, 3, 7, false)] ∧
  ∀ (i : Instr) (s : State) (r : Byte),
    (i.mnemonic = .inc ∧ r = memRead s (addressOf i s) + 1#8 ∨ i.mnemonic = .dec ∧ r = memRead s (addressOf i s) - 1#8) →
    operationAccesses i (fetched i s) = [.read (addressOf i s) (memRead s (addressOf i s)), .write (addressOf i s) r] ∧
    ∃ t, Completes i s t ∧ memRead t (addressOf i s) = r ∧ SameMemoryBut [addressOf i s] s t ∧ ZeroNegativeFrom r s t ∧
      t.a = s.a ∧ t.x = s.x ∧ t.y = s.y ∧ t.sp = s.sp

/-- R141, R142, R144, R145: INX, INY, DEX, DEY wrap modulo 256 and write Z and N alone. Constructors: inx, iny, dex,
dey. -/
def Obligations.IncDecRegistersByOne : Prop :=
  encodings .inx = [(0xE8, .imp, 1, 2, false)] ∧
  encodings .iny = [(0xC8, .imp, 1, 2, false)] ∧
  encodings .dex = [(0xCA, .imp, 1, 2, false)] ∧
  encodings .dey = [(0x88, .imp, 1, 2, false)] ∧
  ∀ s : State,
    (∃ t, Completes .inx s t ∧ t.x = s.x + 1#8 ∧ ZeroNegativeFrom (s.x + 1#8) s t ∧ t.a = s.a ∧ t.y = s.y ∧ t.sp = s.sp ∧
      SameMemory s t) ∧
    (∃ t, Completes .iny s t ∧ t.y = s.y + 1#8 ∧ ZeroNegativeFrom (s.y + 1#8) s t ∧ t.a = s.a ∧ t.x = s.x ∧ t.sp = s.sp ∧
      SameMemory s t) ∧
    (∃ t, Completes .dex s t ∧ t.x = s.x - 1#8 ∧ ZeroNegativeFrom (s.x - 1#8) s t ∧ t.a = s.a ∧ t.y = s.y ∧ t.sp = s.sp ∧
      SameMemory s t) ∧
    (∃ t, Completes .dey s t ∧ t.y = s.y - 1#8 ∧ ZeroNegativeFrom (s.y - 1#8) s t ∧ t.a = s.a ∧ t.x = s.x ∧ t.sp = s.sp ∧
      SameMemory s t)

/-- R150 to R154: the shifts and rotates in every form, on A or on memory, as arithmetic on naturals: ASL doubles
modulo 256, LSR halves, ROL and ROR rotate the nine bits of C and the operand; C is the bit shifted out, Z and N
follow the result; a memory form makes one read and then one write of its address, the accumulator form no access;
everything else is kept. Constructors: aslAcc, aslZp, aslZpx, aslAbs, aslAbx, lsrAcc, lsrZp, lsrZpx, lsrAbs, lsrAbx,
rolAcc, rolZp, rolZpx, rolAbs, rolAbx, rorAcc, rorZp, rorZpx, rorAbs, rorAbx. -/
def Obligations.ShiftsMoveOneBit : Prop :=
  encodings .asl = [(0x0A, .acc, 1, 2, false), (0x06, .zp, 2, 5, false), (0x16, .zpx, 2, 6, false),
    (0x0E, .abs, 3, 6, false), (0x1E, .abx, 3, 7, false)] ∧
  encodings .lsr = [(0x4A, .acc, 1, 2, false), (0x46, .zp, 2, 5, false), (0x56, .zpx, 2, 6, false),
    (0x4E, .abs, 3, 6, false), (0x5E, .abx, 3, 7, false)] ∧
  encodings .rol = [(0x2A, .acc, 1, 2, false), (0x26, .zp, 2, 5, false), (0x36, .zpx, 2, 6, false),
    (0x2E, .abs, 3, 6, false), (0x3E, .abx, 3, 7, false)] ∧
  encodings .ror = [(0x6A, .acc, 1, 2, false), (0x66, .zp, 2, 5, false), (0x76, .zpx, 2, 6, false),
    (0x6E, .abs, 3, 6, false), (0x7E, .abx, 3, 7, false)] ∧
  ∀ (i : Instr) (s : State),
    i.mnemonic = .asl ∨ i.mnemonic = .lsr ∨ i.mnemonic = .rol ∨ i.mnemonic = .ror →
    ∃ t r, Completes i s t ∧ PutsResult i s t r ∧
      operationAccesses i (fetched i s) =
        (if i.operand = .acc then [] else [.read (addressOf i s) (operandOf i s), .write (addressOf i s) r]) ∧
      t.flag .zero = decide (r = 0#8) ∧ t.flag .negative = r.getLsbD 7 ∧
      FlagsKeptBut [.carry, .zero, .negative] s t ∧
      (i.mnemonic = .asl → r.toNat = 2 * (operandOf i s).toNat % 256 ∧ t.flag .carry = (operandOf i s).getLsbD 7) ∧
      (i.mnemonic = .lsr → r.toNat = (operandOf i s).toNat / 2 ∧ t.flag .carry = (operandOf i s).getLsbD 0) ∧
      (i.mnemonic = .rol →
        256 * (t.flag .carry).toNat + r.toNat = 2 * (operandOf i s).toNat + (s.flag .carry).toNat) ∧
      (i.mnemonic = .ror →
        2 * r.toNat + (t.flag .carry).toNat = 256 * (s.flag .carry).toNat + (operandOf i s).toNat)

/-- R160, R161, R162: AND, ORA and EOR in every form write each bit of A as the operation of the two bits, and Z and N
from the result; everything else is kept. Constructors: andImm, andZp, andZpx, andAbs, andAbx, andAby, andIzx, andIzy,
oraImm, oraZp, oraZpx, oraAbs, oraAbx, oraAby, oraIzx, oraIzy, eorImm, eorZp, eorZpx, eorAbs, eorAbx, eorAby, eorIzx,
eorIzy. -/
def Obligations.LogicalOperationsAreBitwise : Prop :=
  encodings .and = [(0x29, .imm, 2, 2, false), (0x25, .zp, 2, 3, false), (0x35, .zpx, 2, 4, false),
    (0x2D, .abs, 3, 4, false), (0x3D, .abx, 3, 4, true), (0x39, .aby, 3, 4, true), (0x21, .izx, 2, 6, false),
    (0x31, .izy, 2, 5, true)] ∧
  encodings .ora = [(0x09, .imm, 2, 2, false), (0x05, .zp, 2, 3, false), (0x15, .zpx, 2, 4, false),
    (0x0D, .abs, 3, 4, false), (0x1D, .abx, 3, 4, true), (0x19, .aby, 3, 4, true), (0x01, .izx, 2, 6, false),
    (0x11, .izy, 2, 5, true)] ∧
  encodings .eor = [(0x49, .imm, 2, 2, false), (0x45, .zp, 2, 3, false), (0x55, .zpx, 2, 4, false),
    (0x4D, .abs, 3, 4, false), (0x5D, .abx, 3, 4, true), (0x59, .aby, 3, 4, true), (0x41, .izx, 2, 6, false),
    (0x51, .izy, 2, 5, true)] ∧
  ∀ (i : Instr) (s : State), i.mnemonic = .and ∨ i.mnemonic = .ora ∨ i.mnemonic = .eor →
    ∃ t, Completes i s t ∧ ZeroNegativeFrom t.a s t ∧ t.x = s.x ∧ t.y = s.y ∧ t.sp = s.sp ∧ SameMemory s t ∧
      ∀ k < 8,
        (i.mnemonic = .and → t.a.getLsbD k = (s.a.getLsbD k && (operandOf i s).getLsbD k)) ∧
        (i.mnemonic = .ora → t.a.getLsbD k = (s.a.getLsbD k || (operandOf i s).getLsbD k)) ∧
        (i.mnemonic = .eor → t.a.getLsbD k = xor (s.a.getLsbD k) ((operandOf i s).getLsbD k))

/-- R163: BIT sets Z from A and the operand, N and V from bits 7 and 6 of the operand itself; A, memory and the other
flags are kept. Constructors: bitZp, bitAbs. -/
def Obligations.BitTestsTheOperand : Prop :=
  encodings .bit = [(0x24, .zp, 2, 3, false), (0x2C, .abs, 3, 4, false)] ∧
  ∀ (i : Instr) (s : State), i.mnemonic = .bit →
    ∃ t, Completes i s t ∧ t.flag .zero = decide (s.a &&& operandOf i s = 0#8) ∧
      t.flag .negative = (operandOf i s).getLsbD 7 ∧ t.flag .overflow = (operandOf i s).getLsbD 6 ∧
      FlagsKeptBut [.zero, .negative, .overflow] s t ∧
      t.a = s.a ∧ t.x = s.x ∧ t.y = s.y ∧ t.sp = s.sp ∧ SameMemory s t

/-- R170: Compare sets C to "not less" and Z to "equal" on the unsigned values and N to bit 7 of the 8 bit difference;
it is the adder on the complement with the carry in forced to 1, and no other bit of P changes. -/
def Obligations.CompareIsSubtractionWithCarryForced : Prop :=
  ∀ reg m p : Byte,
    getFlag .carry (compare reg m p) = decide (m.toNat ≤ reg.toNat) ∧
    getFlag .zero (compare reg m p) = decide (reg = m) ∧
    getFlag .negative (compare reg m p) = (reg - m).getLsbD 7 ∧
    reg - m = (addCore reg (~~~m) true).r ∧
    getFlag .carry (compare reg m p) = (addCore reg (~~~m) true).cout ∧
    ∀ f : Flag, f ≠ .carry → f ≠ .zero → f ≠ .negative → getFlag f (compare reg m p) = getFlag f p

/-- R171, R172, R173: CMP, CPX and CPY in every form compare A, X or Y with the operand and change C, Z and N alone.
Constructors: cmpImm, cmpZp, cmpZpx, cmpAbs, cmpAbx, cmpAby, cmpIzx, cmpIzy, cpxImm, cpxZp, cpxAbs, cpyImm, cpyZp,
cpyAbs. -/
def Obligations.ComparesSetCarryZeroNegative : Prop :=
  encodings .cmp = [(0xC9, .imm, 2, 2, false), (0xC5, .zp, 2, 3, false), (0xD5, .zpx, 2, 4, false),
    (0xCD, .abs, 3, 4, false), (0xDD, .abx, 3, 4, true), (0xD9, .aby, 3, 4, true), (0xC1, .izx, 2, 6, false),
    (0xD1, .izy, 2, 5, true)] ∧
  encodings .cpx = [(0xE0, .imm, 2, 2, false), (0xE4, .zp, 2, 3, false), (0xEC, .abs, 3, 4, false)] ∧
  encodings .cpy = [(0xC0, .imm, 2, 2, false), (0xC4, .zp, 2, 3, false), (0xCC, .abs, 3, 4, false)] ∧
  ∀ (i : Instr) (s : State) (reg : Byte),
    (i.mnemonic = .cmp ∧ reg = s.a ∨ i.mnemonic = .cpx ∧ reg = s.x ∨ i.mnemonic = .cpy ∧ reg = s.y) →
    ∃ t, Completes i s t ∧ t.flag .carry = decide ((operandOf i s).toNat ≤ reg.toNat) ∧
      t.flag .zero = decide (reg = operandOf i s) ∧ t.flag .negative = (reg - operandOf i s).getLsbD 7 ∧
      FlagsKeptBut [.carry, .zero, .negative] s t ∧
      t.a = s.a ∧ t.x = s.x ∧ t.y = s.y ∧ t.sp = s.sp ∧ SameMemory s t

/-- R180 to R188, the cycle numbers and the page compared by the spec's decision D20: each branch tests its flag;
taken, PC is the next instruction's address plus the signed operand byte and it costs 3 cycles, or 4 when the target
lies in another page than the next instruction; not taken, PC is the next instruction and it costs 2; nothing else
changes. Constructors: bcc, bcs, beq, bne, bmi, bpl, bvc, bvs. -/
def Obligations.BranchesFollowTheirFlag : Prop :=
  encodings .bcc = [(0x90, .rel, 2, 2, false)] ∧
  encodings .bcs = [(0xB0, .rel, 2, 2, false)] ∧
  encodings .beq = [(0xF0, .rel, 2, 2, false)] ∧
  encodings .bne = [(0xD0, .rel, 2, 2, false)] ∧
  encodings .bmi = [(0x30, .rel, 2, 2, false)] ∧
  encodings .bpl = [(0x10, .rel, 2, 2, false)] ∧
  encodings .bvc = [(0x50, .rel, 2, 2, false)] ∧
  encodings .bvs = [(0x70, .rel, 2, 2, false)] ∧
  ∀ (op8 : Byte) (s : State),
    BranchesOn .carry false (.bcc op8) op8 s ∧ BranchesOn .carry true (.bcs op8) op8 s ∧
    BranchesOn .zero true (.beq op8) op8 s ∧ BranchesOn .zero false (.bne op8) op8 s ∧
    BranchesOn .negative true (.bmi op8) op8 s ∧ BranchesOn .negative false (.bpl op8) op8 s ∧
    BranchesOn .overflow false (.bvc op8) op8 s ∧ BranchesOn .overflow true (.bvs op8) op8 s

/-- R190: JMP absolute goes to its operand and reads nothing there; nothing but PC, the cycles and the run state
changes. Constructor: jmpAbs. -/
def Obligations.JmpAbsoluteSetsPcAlone : Prop :=
  (encodings .jmp).head? = some (0x4C, .abs, 3, 3, false) ∧
  ∀ (addr : Addr) (s : State),
    operationAccesses (.jmpAbs addr) (fetched (.jmpAbs addr) s) = [] ∧
    exec (.jmpAbs addr) s = .next { s with pc := addr, cycles := s.cycles + 3, runState := .running }

/-- R191, with the OPEN parameter JMP_IND_PAGE_WRAP of R5 left at either value (log entry 2; the spec's decision D9):
JMP indirect goes to the little-endian word at its pointer, the high byte being read at the next address or, when the
parameter is true, at the next address of the same page; nothing but PC, the cycles and the run state changes.
Constructor: jmpInd. -/
def Obligations.JmpIndirectReadsItsPointer : Prop :=
  (encodings .jmp).getLast? = some (0x6C, .ind, 3, 5, false) ∧
  ∀ (addr : Addr) (s : State),
    exec (.jmpInd addr) s = .next { s with
      pc := word
        (memRead s (if Config.jmpIndPageWrap = true then word (hiByte addr) (loByte addr + 1#8) else addr + 1#16))
        (memRead s addr)
      cycles := s.cycles + 5
      runState := .running }

/-- R192: JSR pushes the address of its own last byte, high byte first, and jumps to its operand; A, X, Y, P and every
byte outside the two stack slots are kept. Constructor: jsr. -/
def Obligations.JsrPushesReturnAddress : Prop :=
  encodings .jsr = [(0x20, .abs, 3, 6, false)] ∧
  ∀ (addr : Addr) (s : State),
    operationAccesses (.jsr addr) (fetched (.jsr addr) s) =
      [.write (stackAddr s.sp) (hiByte (s.pc + 2#16)), .write (stackAddr (s.sp - 1#8)) (loByte (s.pc + 2#16))] ∧
    ∃ t, exec (.jsr addr) s = .next t ∧ t.pc = addr ∧ t.sp = s.sp - 2#8 ∧
      memRead t (stackAddr s.sp) = hiByte (s.pc + 2#16) ∧ memRead t (stackAddr (s.sp - 1#8)) = loByte (s.pc + 2#16) ∧
      SameMemoryBut [stackAddr s.sp, stackAddr (s.sp - 1#8)] s t ∧
      t.a = s.a ∧ t.x = s.x ∧ t.y = s.y ∧ t.p = s.p ∧ t.cycles = s.cycles + 6 ∧ t.runState = .running ∧
      t.haltReason = s.haltReason

/-- R193: RTS pulls the low byte, then the high byte, and goes to the address after the one they name; nothing else
changes. Constructor: rts. -/
def Obligations.RtsPullsPcPlusOne : Prop :=
  encodings .rts = [(0x60, .imp, 1, 6, false)] ∧
  ∀ s : State,
    exec .rts s = .next { s with
      pc := word (memRead s (stackAddr (s.sp + 2#8))) (memRead s (stackAddr (s.sp + 1#8))) + 1#16
      sp := s.sp + 2#8
      cycles := s.cycles + 6
      runState := .running }

/-- R194, derived there from R192 and R193: after a JSR to any address, an RTS in any later state whose SP and two
stacked bytes are as the JSR left them puts PC on the instruction after the JSR and SP at its value before the call,
across the wrap of SP too. -/
def Obligations.CallThenReturnComesBack : Prop :=
  ∀ (addr : Addr) (s t u : State), exec (.jsr addr) s = .next t → u.sp = t.sp →
    memRead u (stackAddr s.sp) = memRead t (stackAddr s.sp) →
    memRead u (stackAddr (s.sp - 1#8)) = memRead t (stackAddr (s.sp - 1#8)) →
    ∃ v, exec .rts u = .next v ∧ v.pc = s.pc + 3#16 ∧ v.sp = s.sp

/-- R195: RTI pulls P (U forced to 1, B to 0, the six flags copied), then PC low, then PC high, with no 1 added;
nothing else changes. Constructor: rti. -/
def Obligations.RtiPullsStatusAndPc : Prop :=
  encodings .rti = [(0x40, .imp, 1, 6, false)] ∧
  ∀ s : State,
    exec .rti s = .next { s with
      p := (memRead s (stackAddr (s.sp + 1#8)) &&& 0xEF#8) ||| 0x20#8
      pc := word (memRead s (stackAddr (s.sp + 3#8))) (memRead s (stackAddr (s.sp + 2#8)))
      sp := s.sp + 3#8
      cycles := s.cycles + 6
      runState := .running }

/-- R229 with R195 and R226: an RTI right after an interrupt entry, through either vector, restores P and SP and
returns to the interrupted instruction, for every P in the form R18 gives it. -/
def Obligations.RtiUndoesInterruptEntry : Prop :=
  ∀ (s : State) (vector : Addr), StatusForm s →
    ∃ t, exec .rti (interruptEntry vector s) = .next t ∧ t.pc = s.pc ∧ t.p = s.p ∧ t.sp = s.sp ∧
      t.a = s.a ∧ t.x = s.x ∧ t.y = s.y

/-- R200, R201: PHA stores A and PHP stores P with B = 1 and U = 1 at 0x0100 + SP, and SP decreases by 1 modulo 256;
A, X, Y, P and every other byte are kept. Constructors: pha, php. -/
def Obligations.PushInstructionsStoreAndDecrement : Prop :=
  encodings .pha = [(0x48, .imp, 1, 3, false)] ∧
  encodings .php = [(0x08, .imp, 1, 3, false)] ∧
  ∀ s : State,
    (∃ t, Completes .pha s t ∧ memRead t (stackAddr s.sp) = s.a ∧ SameMemoryBut [stackAddr s.sp] s t ∧ t.sp = s.sp - 1#8 ∧
      t.a = s.a ∧ t.x = s.x ∧ t.y = s.y ∧ t.p = s.p) ∧
    (∃ t, Completes .php s t ∧ memRead t (stackAddr s.sp) = s.p ||| 0x30#8 ∧ SameMemoryBut [stackAddr s.sp] s t ∧
      t.sp = s.sp - 1#8 ∧ t.a = s.a ∧ t.x = s.x ∧ t.y = s.y ∧ t.p = s.p)

/-- R202: PLA increases SP by 1 modulo 256, reads the byte there into A and sets Z and N from it; everything else is
kept. Constructor: pla. -/
def Obligations.PlaPullsAccumulator : Prop :=
  encodings .pla = [(0x68, .imp, 1, 4, false)] ∧
  ∀ s : State,
    ∃ t, Completes .pla s t ∧ t.sp = s.sp + 1#8 ∧ t.a = memRead s (stackAddr (s.sp + 1#8)) ∧ ZeroNegativeFrom t.a s t ∧
      t.x = s.x ∧ t.y = s.y ∧ SameMemory s t

/-- R203, B forced to 0 by the spec's decision D5: PLP increases SP by 1 modulo 256 and loads P from the byte there, U
forced to 1 and B to 0, the other six flags copied; everything else is kept. Constructor: plp. -/
def Obligations.PlpPullsStatus : Prop :=
  encodings .plp = [(0x28, .imp, 1, 4, false)] ∧
  ∀ s : State,
    ∃ t, Completes .plp s t ∧ t.sp = s.sp + 1#8 ∧ t.flag .unused = true ∧ t.flag .brk = false ∧
      (∀ f : Flag, f ≠ .unused → f ≠ .brk → t.flag f = getFlag f (memRead s (stackAddr (s.sp + 1#8)))) ∧
      t.a = s.a ∧ t.x = s.x ∧ t.y = s.y ∧ SameMemory s t

/-- R50, R51, R52: a push writes 0x0100 + SP, a byte of page 1, and decrements SP; a pull right after it returns the
byte and restores SP; with SP = 0x00 a push writes 0x0100 and leaves 0xFF, and with SP = 0xFF a pull reads 0x0100 and
leaves 0x00. -/
def Obligations.PullAfterPushReturnsTheByte : Prop :=
  ∀ (s : State) (v : Byte),
    (push v s).sp = s.sp - 1#8 ∧ memRead (push v s) (0x0100#16 + zext16 s.sp) = v ∧
    SameMemoryBut [0x0100#16 + zext16 s.sp] s (push v s) ∧
    (pull s).1 = memRead s (0x0100#16 + zext16 (s.sp + 1#8)) ∧ (pull s).2 = { s with sp := s.sp + 1#8 } ∧
    (pull (push v s)).1 = v ∧ (pull (push v s)).2.sp = s.sp ∧
    (s.sp = 0x00#8 → (push v s).sp = 0xFF#8 ∧ memRead (push v s) 0x0100#16 = v) ∧
    (s.sp = 0xFF#8 → (pull s).2.sp = 0x00#8 ∧ (pull s).1 = memRead s 0x0100#16)

/-- R204 to R210: each of the seven writes exactly one flag and nothing else. Constructors: clc, sec, cli, sei, cld,
sed, clv. -/
def Obligations.FlagInstructionsWriteOneFlag : Prop :=
  encodings .clc = [(0x18, .imp, 1, 2, false)] ∧
  encodings .sec = [(0x38, .imp, 1, 2, false)] ∧
  encodings .cli = [(0x58, .imp, 1, 2, false)] ∧
  encodings .sei = [(0x78, .imp, 1, 2, false)] ∧
  encodings .cld = [(0xD8, .imp, 1, 2, false)] ∧
  encodings .sed = [(0xF8, .imp, 1, 2, false)] ∧
  encodings .clv = [(0xB8, .imp, 1, 2, false)] ∧
  ∀ s : State,
    WritesFlag .carry false .clc s ∧ WritesFlag .carry true .sec s ∧ WritesFlag .irqDisable false .cli s ∧
    WritesFlag .irqDisable true .sei s ∧ WritesFlag .decimal false .cld s ∧ WritesFlag .decimal true .sed s ∧
    WritesFlag .overflow false .clv s

/-- R211: NOP advances PC by 1 and counts 2 cycles and does nothing else. Constructor: nop. -/
def Obligations.NopAdvancesPcAlone : Prop :=
  encodings .nop = [(0xEA, .imp, 1, 2, false)] ∧
  ∀ s : State, exec .nop s = .next { s with pc := s.pc + 1#16, cycles := s.cycles + 2, runState := .running }

/-- R212, R222, by the spec's decision D3 (BRK is the stop opcode): BRK halts with reason Break, PC on the byte after
it, 7 cycles counted; no register, flag or byte of memory changes. Constructor: brk. -/
def Obligations.BrkHaltsCleanly : Prop :=
  encodings .brk = [(0x00, .imp, 1, 7, false)] ∧
  ∀ s : State, exec .brk s = .next { s with
      pc := s.pc + 1#16, cycles := s.cycles + 7, runState := .halted, haltReason := some .brk }

/-- R221, R233, PC and the cycles by the spec's decision D1: a step on any of the 105 illegal opcodes leaves PC on the
opcode, halts with the opcode and its address as the reason, and changes nothing else, the cycle counter included; the
next step changes nothing. Constructor: illegal. -/
def Obligations.IllegalOpcodeIsPrecise : Prop :=
  ∀ (s : State) (op : Byte),
    exec (.illegal op) s = .next { s with runState := .halted, haltReason := some (.illegalOpcode op s.pc) } ∧
    (Fetching s → isIllegalOpcode (memRead s s.pc) = true →
      ∃ t, step s = .next t ∧
        t = { s with runState := .halted, haltReason := some (.illegalOpcode (memRead s s.pc) s.pc) } ∧
        stepReport s = .next (t, 0) ∧ stepReport t = .next (t, 0))

/-- R18 (B = 0 by the spec's decision D5), R22, R23, R24: from every state in which P reads N V 1 0 D I Z C, there is
a halt reason exactly while halted, and memory is in its canonical form, a step that answers a next state answers one
with all three. -/
def Obligations.StepKeepsTheInvariant : Prop :=
  ∀ s t : State, GoodState s → step s = .next t → GoodState t

/-- R18, R28: the machine right after reset has the invariant. -/
def Obligations.ResetStateHasTheInvariant : Prop :=
  GoodState State.reset

/-- R18, R22, R23, R228, R230: every sequence of host calls (reset, step, run, trigger_irq, trigger_nmi, load), made
in any state with the invariant, that is not refused leads to a state with the invariant. -/
def Obligations.HostCallsKeepTheInvariant : Prop :=
  ∀ (cs : List HostCall) (s t : State), GoodState s → calls cs s = .next t → GoodState t

/-- R28, R252 and log entry 3 (the model's choice that the free P of a new core has the form of R18): a core
constructed on any memory in canonical form has the invariant, and so has it after reset. -/
def Obligations.ConstructionHasTheInvariant : Prop :=
  ∀ m : Memory, m.wf = true → GoodState (newCore m) ∧ GoodState (resetCore (newCore m))

/-- R250, R251, R28, the values of A, X, Y, SP and P by the spec's decisions D6 and D7: reset gives every register its
value whatever it held, takes PC from 0xFFFC and 0xFFFD low byte first, changes no byte of memory, and depends on
nothing but memory; State.reset is what it gives on a new core with nothing loaded. -/
def Obligations.ResetLoadsTheVector : Prop :=
  ∀ s u : State,
    (resetCore s).a = 0x00#8 ∧ (resetCore s).x = 0x00#8 ∧ (resetCore s).y = 0x00#8 ∧ (resetCore s).sp = 0xFD#8 ∧
    (resetCore s).p = 0x24#8 ∧ (resetCore s).pc = word (memRead s 0xFFFD#16) (memRead s 0xFFFC#16) ∧
    (resetCore s).cycles = 0 ∧ (resetCore s).runState = .reset ∧ (resetCore s).haltReason = none ∧
    SameMemory s (resetCore s) ∧ (s.mem = u.mem → resetCore s = resetCore u) ∧
    State.reset = resetCore (newCore [])

/-- R225, the reported numbers by the spec's decision D19: on a core that has been reset, trigger_irq with I = 1 does
nothing and reports 0, with I = 0 it performs the entry through 0xFFFE and reports 7; trigger_nmi performs the entry
through 0xFFFA whatever I holds and reports 7. -/
def Obligations.IrqIsMaskedByTheIFlag : Prop :=
  ∀ s : State, Started s →
    (s.flag .irqDisable = true → triggerIrq s = .next (s, 0)) ∧
    (s.flag .irqDisable = false → triggerIrq s = .next (interruptEntry 0xFFFE#16 s, 7)) ∧
    triggerNmi s = .next (interruptEntry 0xFFFA#16 s, 7)

/-- R226, I set by NMI too by the spec's decision D4: a taken interrupt entry pushes PC high, PC low and P with B = 0
and U = 1, sets I, loads PC from the vector (the stack page never holds it), counts 7 cycles (decision D18, log entry
7), reports them (decision D19, log entry 19) and leaves the core Interrupted (decision D12, log entry 19) with no halt
reason; A, X, Y, the other flags and every other byte are kept. -/
def Obligations.InterruptEntrySavesPcAndStatus : Prop :=
  ∀ s : State, Started s →
    (∃ t, triggerNmi s = .next (t, 7) ∧ EntersThrough 0xFFFA#16 s t) ∧
    (s.flag .irqDisable = false → ∃ t, triggerIrq s = .next (t, 7) ∧ EntersThrough 0xFFFE#16 s t)

/-- R230, with the spec's decisions D8 and D12: the transition table of run_state, row by row. -/
def Obligations.RunStateTransitions : Prop :=
  ∀ (s : State) (bus : Memory) (budget : Nat),
    (newCore bus).runState = .unreset ∧ (resetCore s).runState = .reset ∧
    (s.runState = .unreset → step s = .refused .beforeReset ∧ run budget s = .refused .beforeReset ∧
      triggerIrq s = .refused .beforeReset ∧ triggerNmi s = .refused .beforeReset) ∧
    (Fetching s → isIllegalOpcode (memRead s s.pc) = false → memRead s s.pc ≠ 0x00#8 →
      ∃ t, step s = .next t ∧ t.runState = .running) ∧
    (Fetching s → memRead s s.pc = 0x00#8 →
      ∃ t, step s = .next t ∧ t.runState = .halted ∧ t.haltReason = some .brk) ∧
    (Fetching s → isIllegalOpcode (memRead s s.pc) = true →
      ∃ t, step s = .next t ∧ t.runState = .halted ∧ t.haltReason = some (.illegalOpcode (memRead s s.pc) s.pc)) ∧
    (s.runState = .halted → stepReport s = .next (s, 0)) ∧
    (Started s → ∃ t n, triggerNmi s = .next (t, n) ∧ t.runState = .interrupted) ∧
    (Started s → s.flag .irqDisable = false → ∃ t n, triggerIrq s = .next (t, n) ∧ t.runState = .interrupted) ∧
    (Started s → s.flag .irqDisable = true → ∃ t n, triggerIrq s = .next (t, n) ∧ t.runState = s.runState)

/-- R231, the spec's decision D17: on a core that has been reset, run answers; it is a number of steps; what it
reports as used is what the cycle counter gained; it stops halted with the halt reason, or not halted with the budget
used up, and overshoots the budget by at most 6 cycles. -/
def Obligations.RunStopsHaltedOrAtItsBudget : Prop :=
  ∀ (budget : Nat) (s : State), Started s →
    ∃ t used stop, run budget s = .next (t, used, stop) ∧ (∃ k, Host.Core.run core k s = .next t) ∧
      t.cycles = s.cycles + used ∧ used ≤ budget + 6 ∧
      ((t.runState = .halted ∧ stop = .halted t.haltReason) ∨
        (t.runState ≠ .halted ∧ stop = .budgetExhausted ∧ budget ≤ used))

/-- R260: a step that fetches adds to the cycle counter, and returns, the base cycles of its opcode, 1 when the opcode
pays for a page cross and the resolver reports one, and the branch extra; an illegal opcode and a step on a halted
core count 0. -/
def Obligations.StepCountsItsCycles : Prop :=
  ∀ s : State,
    (Fetching s → ∃ t, stepReport s = .next (t, instrCycles (fetchInstr s) s) ∧
      t.cycles = s.cycles + instrCycles (fetchInstr s) s) ∧
    (Fetching s → isIllegalOpcode (memRead s s.pc) = true → instrCycles (fetchInstr s) s = 0) ∧
    (s.runState = .halted → stepReport s = .next (s, 0))

/-- R53 (no dummy accesses, by the spec's decision D13), R54, R55: every read in the access list of a step returns
what memory holds at that point of the list, and the writes of the list, in order, make exactly the memory after the
step. -/
def Obligations.AccessListReplays : Prop :=
  ∀ s t : State, step s = .next t →
    readsAgree (stepAccesses s) s.mem = true ∧ applyWrites (stepAccesses s) s.mem = t.mem

/-- R53, with the spec's decision D13: a step depends on no byte of memory outside its access list: in any other
memory that holds the same bytes at the addresses the list reads, the step does the same to every register and makes
the same writes. -/
def Obligations.StepReadsOnlyItsAccessList : Prop :=
  ∀ (s t : State) (m : Memory), step s = .next t →
    (∀ (addr : Addr) (v : Byte), .read addr v ∈ stepAccesses s → m.get addr.toNat = v) →
    step (s.setMem m) = .next (t.setMem (applyWrites (stepAccesses s) m))

/-- R17: no instruction changes a flag it is not listed as a writer of; nothing changes B or U but PLP and RTI, which
force them. -/
def Obligations.FlagsChangeOnlyByTheirWriters : Prop :=
  ∀ (i : Instr) (s t : State) (f : Flag), exec i s = .next t → t.flag f ≠ s.flag f →
    i.mnemonic ∈ flagWriters f ∨ ((f = .brk ∨ f = .unused) ∧ (i.mnemonic = .plp ∨ i.mnemonic = .rti))

/-- R10, R11, R12, R13: A, X, Y and SP change only by the instructions their rules list. -/
def Obligations.RegistersChangeOnlyByTheirWriters : Prop :=
  ∀ (i : Instr) (s t : State), exec i s = .next t →
    (t.a ≠ s.a → writesA i = true) ∧ (t.x ≠ s.x → i.mnemonic ∈ writersX) ∧ (t.y ≠ s.y → i.mnemonic ∈ writersY) ∧
    (t.sp ≠ s.sp → i.mnemonic ∈ writersSp)

/-- R14, R15: an instruction that is no branch, jump, call, return or illegal opcode leaves PC at its own address plus
its length, modulo 65,536. -/
def Obligations.PcAdvancesByTheLength : Prop :=
  ∀ (i : Instr) (s t : State), exec i s = .next t → i.mnemonic ∉ writersPc →
    t.pc.toNat = (s.pc.toNat + (encode i).length) % 65536

/-- R43, R53, R105 (20_memory.md, 40_addressing.md): every instruction leaves every byte outside the addresses it
stores to as it was; the addresses are computed as its meaning computes them, and those of a push lie in page 1. -/
def Obligations.MemoryChangesOnlyWhereStored : Prop :=
  ∀ (i : Instr) (s t : State), exec i s = .next t →
    SameMemoryBut (storedAddresses i s) s t ∧
    (i.mnemonic = .pha ∨ i.mnemonic = .php ∨ i.mnemonic = .jsr → ∀ addr ∈ storedAddresses i s, hiByte addr = 0x01#8)

/-- R91 to R103: what each of the thirteen modes resolves to, its effective address as arithmetic on naturals. IMP and
ACC name no address. In a state past the instruction, IMM is the address of its operand byte, the one before PC;
zero-page sums and pointer increments are modulo 256, all others modulo 65,536; pointers are little-endian; a relative
target is the address of the next instruction plus the signed operand byte. The high byte of an IND pointer is read at
the next address or, when the OPEN parameter JMP_IND_PAGE_WRAP of R5 is true, at the next address of the same page (log
entry 2; the spec's decision D9). -/
def Obligations.ResolverAddressesWrap : Prop :=
  ∀ (s : State) (op8 : Byte) (addr : Addr),
    (resolve .imp s).kind = .none ∧ (resolve .acc s).kind = .acc ∧
    (resolve (.imm op8) s).ea.toNat = (s.pc.toNat + 65535) % 65536 ∧
    (resolve (.imm op8) (s.afterFetch 2)).ea.toNat = (s.pc.toNat + 1) % 65536 ∧
    (resolve (.zp op8) s).ea.toNat = op8.toNat ∧
    (resolve (.zpx op8) s).ea.toNat = (op8.toNat + s.x.toNat) % 256 ∧
    (resolve (.zpy op8) s).ea.toNat = (op8.toNat + s.y.toNat) % 256 ∧
    (resolve (.abs addr) s).ea = addr ∧
    (resolve (.abx addr) s).ea.toNat = (addr.toNat + s.x.toNat) % 65536 ∧
    (resolve (.aby addr) s).ea.toNat = (addr.toNat + s.y.toNat) % 65536 ∧
    (resolve (.ind addr) s).ea.toNat =
      256 * (s.mem.get (if Config.jmpIndPageWrap = true then 256 * (addr.toNat / 256) + (addr.toNat + 1) % 256
        else (addr.toNat + 1) % 65536)).toNat + (s.mem.get addr.toNat).toNat ∧
    (resolve (.izx op8) s).ea.toNat =
      256 * (s.mem.get ((op8.toNat + s.x.toNat + 1) % 256)).toNat + (s.mem.get ((op8.toNat + s.x.toNat) % 256)).toNat ∧
    (resolve (.izy op8) s).ea.toNat =
      (256 * (s.mem.get ((op8.toNat + 1) % 256)).toNat + (s.mem.get op8.toNat).toNat + s.y.toNat) % 65536 ∧
    ((resolve (.rel op8) s).ea.toNat : Int) = ((s.pc.toNat : Int) + op8.toInt) % 65536

/-- R104: the resolver reports a cross exactly when the low byte of the base plus the index exceeds 0xFF, in ABX, ABY
and IZY alone; the opcodes that pay for it are LDA, LDX, LDY, ADC, SBC, AND, ORA, EOR and CMP in those modes. -/
def Obligations.PageCrossIsCarryOutOfTheLowByte : Prop :=
  (∀ (s : State) (addr : Addr) (op8 : Byte),
    ((resolve (.abx addr) s).crossed = true ↔ 255 < (loByte addr).toNat + s.x.toNat) ∧
    ((resolve (.aby addr) s).crossed = true ↔ 255 < (loByte addr).toNat + s.y.toNat) ∧
    ((resolve (.izy op8) s).crossed = true ↔ 255 < (loByte (zeroPagePointer s op8)).toNat + s.y.toNat)) ∧
  (∀ (s : State) (o : Operand), o.mode ∉ [.abx, .aby, .izy] → (resolve o s).crossed = false) ∧
  ∀ i : Instr, i.wf = true →
    (pageCrossExtra i = true ↔ i.operand.mode ∈ [.abx, .aby, .izy] ∧
      i.mnemonic ∈ [.lda, .ldx, .ldy, .adc, .sbc, .and, .ora, .eor, .cmp])

/-- R45, the wrap by the spec's decision D16: load of at most 65,536 bytes puts byte i at origin + i modulo 65,536,
changes no other byte, no register and no cycle count; a longer image is refused. -/
def Obligations.LoadInstallsTheImage : Prop :=
  ∀ (origin : Addr) (bytes : List Byte) (s : State),
    (bytes.length ≤ 65536 →
      ∃ t, load origin bytes s = .next t ∧ t = { s with mem := t.mem } ∧
        (∀ k (h : k < bytes.length), memRead t (origin + BitVec.ofNat 16 k) = bytes[k]) ∧
        ∀ addr : Addr, (∀ k < bytes.length, addr ≠ origin + BitVec.ofNat 16 k) → memRead t addr = memRead s addr) ∧
    (65536 < bytes.length → load origin bytes s = .refused (.imageTooLong bytes.length))

/-- R20, B forced to 0 by the spec's decision D5: the byte PHP pushes has B = 1 and U = 1, the byte an interrupt
pushes and the byte FromByte makes have B = 0 and U = 1, the other six bits as they were; on a P in the form of R18
the interrupt's byte is P itself. -/
def Obligations.StatusByteImages : Prop :=
  ∀ (p : Byte) (f : Flag),
    getFlag f (pushByteSoftware p) = (f == .unused || f == .brk || getFlag f p) ∧
    getFlag f (pushByteInterrupt p) = (f == .unused || (f != .brk && getFlag f p)) ∧
    getFlag f (fromByte p) = (f == .unused || (f != .brk && getFlag f p)) ∧
    (getFlag .unused p = true → getFlag .brk p = false → pushByteInterrupt p = p)

/-- R18 and 90_conflicts.md C6: the status register's set operation, asked to clear Unused or to set Break, does
nothing; asked to write one of the other six flags, it writes that bit and no other. -/
def Obligations.SetNeverClearsUnusedOrSetsBreak : Prop :=
  ∀ (p : Byte) (f g : Flag) (b : Bool),
    setFlag .unused false p = p ∧ setFlag .brk true p = p ∧
    (f ≠ .unused → f ≠ .brk → getFlag g (setFlag f b p) = if g = f then b else getFlag g p)

/-- R96: for every mnemonic that has both forms, the immediate form and the absolute form with the same operand value
leave the same A, X, Y, SP, P and memory; PC differs by 1 and the cycle count by 2. -/
def Obligations.ImmediateAndAbsoluteAgree : Prop :=
  ∀ (i j : Instr) (s : State) (v : Byte) (addr : Addr), i.mnemonic = j.mnemonic → i.operand = .imm v → j.operand = .abs addr →
    memRead s addr = v →
    ∃ t u, exec i s = .next t ∧ exec j s = .next u ∧
      u = { t with pc := t.pc + 1#16, cycles := t.cycles + 2 }

/-- R57, derived there from R41, R53 and R55: after any instruction in any form, the next step runs the instruction
whose opcode and operand bytes are read from memory as that instruction left it. Every byte it stored (its stores are
exactly the writes of its access list, at the addresses it stores to) is what memory then holds there, so the fetch sees
it wherever the address is PC or one of the two after it; every other byte is as before. -/
def Obligations.StoreIsSeenByTheNextFetch : Prop :=
  ∀ (i : Instr) (s t : State), exec i s = .next t →
    (t.runState ≠ .halted →
      step t = exec (instrOf (memRead t t.pc) (memRead t (t.pc + 1#16)) (memRead t (t.pc + 2#16))) t) ∧
    (∀ addr : Addr, addr ∈ storedAddresses i s ↔ ∃ v : Byte, .write addr v ∈ operationAccesses i (fetched i s)) ∧
    (∀ (addr : Addr) (v : Byte), .write addr v ∈ operationAccesses i (fetched i s) → memRead t addr = v) ∧
    SameMemoryBut (storedAddresses i s) s t
end

