-- ==== Sys2Proof/Laws/State.lean ====
section
/-! SUPPORT. What each register update of Machine/Ops.lean leaves in each field of State: one lemma for each field of each
update, so that no later proof unfolds an update. -/

namespace Sys2Proof.Machine

variable (s : State)

/-! `setA` -/
@[simp] theorem State.setA_a (v : Byte) : (s.setA v).a = v := rfl
@[simp] theorem State.setA_x (v : Byte) : (s.setA v).x = s.x := rfl
@[simp] theorem State.setA_y (v : Byte) : (s.setA v).y = s.y := rfl
@[simp] theorem State.setA_sp (v : Byte) : (s.setA v).sp = s.sp := rfl
@[simp] theorem State.setA_pc (v : Byte) : (s.setA v).pc = s.pc := rfl
@[simp] theorem State.setA_p (v : Byte) : (s.setA v).p = s.p := rfl
@[simp] theorem State.setA_cycles (v : Byte) : (s.setA v).cycles = s.cycles := rfl
@[simp] theorem State.setA_runState (v : Byte) : (s.setA v).runState = s.runState := rfl
@[simp] theorem State.setA_haltReason (v : Byte) : (s.setA v).haltReason = s.haltReason := rfl
@[simp] theorem State.setA_mem (v : Byte) : (s.setA v).mem = s.mem := rfl

/-! `setX` -/
@[simp] theorem State.setX_a (v : Byte) : (s.setX v).a = s.a := rfl
@[simp] theorem State.setX_x (v : Byte) : (s.setX v).x = v := rfl
@[simp] theorem State.setX_y (v : Byte) : (s.setX v).y = s.y := rfl
@[simp] theorem State.setX_sp (v : Byte) : (s.setX v).sp = s.sp := rfl
@[simp] theorem State.setX_pc (v : Byte) : (s.setX v).pc = s.pc := rfl
@[simp] theorem State.setX_p (v : Byte) : (s.setX v).p = s.p := rfl
@[simp] theorem State.setX_cycles (v : Byte) : (s.setX v).cycles = s.cycles := rfl
@[simp] theorem State.setX_runState (v : Byte) : (s.setX v).runState = s.runState := rfl
@[simp] theorem State.setX_haltReason (v : Byte) : (s.setX v).haltReason = s.haltReason := rfl
@[simp] theorem State.setX_mem (v : Byte) : (s.setX v).mem = s.mem := rfl

/-! `setY` -/
@[simp] theorem State.setY_a (v : Byte) : (s.setY v).a = s.a := rfl
@[simp] theorem State.setY_x (v : Byte) : (s.setY v).x = s.x := rfl
@[simp] theorem State.setY_y (v : Byte) : (s.setY v).y = v := rfl
@[simp] theorem State.setY_sp (v : Byte) : (s.setY v).sp = s.sp := rfl
@[simp] theorem State.setY_pc (v : Byte) : (s.setY v).pc = s.pc := rfl
@[simp] theorem State.setY_p (v : Byte) : (s.setY v).p = s.p := rfl
@[simp] theorem State.setY_cycles (v : Byte) : (s.setY v).cycles = s.cycles := rfl
@[simp] theorem State.setY_runState (v : Byte) : (s.setY v).runState = s.runState := rfl
@[simp] theorem State.setY_haltReason (v : Byte) : (s.setY v).haltReason = s.haltReason := rfl
@[simp] theorem State.setY_mem (v : Byte) : (s.setY v).mem = s.mem := rfl

/-! `setSp` -/
@[simp] theorem State.setSp_a (v : Byte) : (s.setSp v).a = s.a := rfl
@[simp] theorem State.setSp_x (v : Byte) : (s.setSp v).x = s.x := rfl
@[simp] theorem State.setSp_y (v : Byte) : (s.setSp v).y = s.y := rfl
@[simp] theorem State.setSp_sp (v : Byte) : (s.setSp v).sp = v := rfl
@[simp] theorem State.setSp_pc (v : Byte) : (s.setSp v).pc = s.pc := rfl
@[simp] theorem State.setSp_p (v : Byte) : (s.setSp v).p = s.p := rfl
@[simp] theorem State.setSp_cycles (v : Byte) : (s.setSp v).cycles = s.cycles := rfl
@[simp] theorem State.setSp_runState (v : Byte) : (s.setSp v).runState = s.runState := rfl
@[simp] theorem State.setSp_haltReason (v : Byte) : (s.setSp v).haltReason = s.haltReason := rfl
@[simp] theorem State.setSp_mem (v : Byte) : (s.setSp v).mem = s.mem := rfl

/-! `setPc` -/
@[simp] theorem State.setPc_a (v : Addr) : (s.setPc v).a = s.a := rfl
@[simp] theorem State.setPc_x (v : Addr) : (s.setPc v).x = s.x := rfl
@[simp] theorem State.setPc_y (v : Addr) : (s.setPc v).y = s.y := rfl
@[simp] theorem State.setPc_sp (v : Addr) : (s.setPc v).sp = s.sp := rfl
@[simp] theorem State.setPc_pc (v : Addr) : (s.setPc v).pc = v := rfl
@[simp] theorem State.setPc_p (v : Addr) : (s.setPc v).p = s.p := rfl
@[simp] theorem State.setPc_cycles (v : Addr) : (s.setPc v).cycles = s.cycles := rfl
@[simp] theorem State.setPc_runState (v : Addr) : (s.setPc v).runState = s.runState := rfl
@[simp] theorem State.setPc_haltReason (v : Addr) : (s.setPc v).haltReason = s.haltReason := rfl
@[simp] theorem State.setPc_mem (v : Addr) : (s.setPc v).mem = s.mem := rfl

/-! `setP` -/
@[simp] theorem State.setP_a (v : Byte) : (s.setP v).a = s.a := rfl
@[simp] theorem State.setP_x (v : Byte) : (s.setP v).x = s.x := rfl
@[simp] theorem State.setP_y (v : Byte) : (s.setP v).y = s.y := rfl
@[simp] theorem State.setP_sp (v : Byte) : (s.setP v).sp = s.sp := rfl
@[simp] theorem State.setP_pc (v : Byte) : (s.setP v).pc = s.pc := rfl
@[simp] theorem State.setP_p (v : Byte) : (s.setP v).p = v := rfl
@[simp] theorem State.setP_cycles (v : Byte) : (s.setP v).cycles = s.cycles := rfl
@[simp] theorem State.setP_runState (v : Byte) : (s.setP v).runState = s.runState := rfl
@[simp] theorem State.setP_haltReason (v : Byte) : (s.setP v).haltReason = s.haltReason := rfl
@[simp] theorem State.setP_mem (v : Byte) : (s.setP v).mem = s.mem := rfl

/-! `setMem` -/
@[simp] theorem State.setMem_a (m : Memory) : (s.setMem m).a = s.a := rfl
@[simp] theorem State.setMem_x (m : Memory) : (s.setMem m).x = s.x := rfl
@[simp] theorem State.setMem_y (m : Memory) : (s.setMem m).y = s.y := rfl
@[simp] theorem State.setMem_sp (m : Memory) : (s.setMem m).sp = s.sp := rfl
@[simp] theorem State.setMem_pc (m : Memory) : (s.setMem m).pc = s.pc := rfl
@[simp] theorem State.setMem_p (m : Memory) : (s.setMem m).p = s.p := rfl
@[simp] theorem State.setMem_cycles (m : Memory) : (s.setMem m).cycles = s.cycles := rfl
@[simp] theorem State.setMem_runState (m : Memory) : (s.setMem m).runState = s.runState := rfl
@[simp] theorem State.setMem_haltReason (m : Memory) : (s.setMem m).haltReason = s.haltReason := rfl
@[simp] theorem State.setMem_mem (m : Memory) : (s.setMem m).mem = m := rfl

/-! `setRunState` -/
@[simp] theorem State.setRunState_a (r : RunState) : (s.setRunState r).a = s.a := rfl
@[simp] theorem State.setRunState_x (r : RunState) : (s.setRunState r).x = s.x := rfl
@[simp] theorem State.setRunState_y (r : RunState) : (s.setRunState r).y = s.y := rfl
@[simp] theorem State.setRunState_sp (r : RunState) : (s.setRunState r).sp = s.sp := rfl
@[simp] theorem State.setRunState_pc (r : RunState) : (s.setRunState r).pc = s.pc := rfl
@[simp] theorem State.setRunState_p (r : RunState) : (s.setRunState r).p = s.p := rfl
@[simp] theorem State.setRunState_cycles (r : RunState) : (s.setRunState r).cycles = s.cycles := rfl
@[simp] theorem State.setRunState_runState (r : RunState) : (s.setRunState r).runState = r := rfl
@[simp] theorem State.setRunState_haltReason (r : RunState) : (s.setRunState r).haltReason = s.haltReason := rfl
@[simp] theorem State.setRunState_mem (r : RunState) : (s.setRunState r).mem = s.mem := rfl

/-! `setHaltReason` -/
@[simp] theorem State.setHaltReason_a (r : Option HaltReason) : (s.setHaltReason r).a = s.a := rfl
@[simp] theorem State.setHaltReason_x (r : Option HaltReason) : (s.setHaltReason r).x = s.x := rfl
@[simp] theorem State.setHaltReason_y (r : Option HaltReason) : (s.setHaltReason r).y = s.y := rfl
@[simp] theorem State.setHaltReason_sp (r : Option HaltReason) : (s.setHaltReason r).sp = s.sp := rfl
@[simp] theorem State.setHaltReason_pc (r : Option HaltReason) : (s.setHaltReason r).pc = s.pc := rfl
@[simp] theorem State.setHaltReason_p (r : Option HaltReason) : (s.setHaltReason r).p = s.p := rfl
@[simp] theorem State.setHaltReason_cycles (r : Option HaltReason) : (s.setHaltReason r).cycles = s.cycles := rfl
@[simp] theorem State.setHaltReason_runState (r : Option HaltReason) : (s.setHaltReason r).runState = s.runState := rfl
@[simp] theorem State.setHaltReason_haltReason (r : Option HaltReason) : (s.setHaltReason r).haltReason = r := rfl
@[simp] theorem State.setHaltReason_mem (r : Option HaltReason) : (s.setHaltReason r).mem = s.mem := rfl

/-! `addCycles` -/
@[simp] theorem State.addCycles_a (n : Nat) : (s.addCycles n).a = s.a := rfl
@[simp] theorem State.addCycles_x (n : Nat) : (s.addCycles n).x = s.x := rfl
@[simp] theorem State.addCycles_y (n : Nat) : (s.addCycles n).y = s.y := rfl
@[simp] theorem State.addCycles_sp (n : Nat) : (s.addCycles n).sp = s.sp := rfl
@[simp] theorem State.addCycles_pc (n : Nat) : (s.addCycles n).pc = s.pc := rfl
@[simp] theorem State.addCycles_p (n : Nat) : (s.addCycles n).p = s.p := rfl
@[simp] theorem State.addCycles_cycles (n : Nat) : (s.addCycles n).cycles = s.cycles + n := rfl
@[simp] theorem State.addCycles_runState (n : Nat) : (s.addCycles n).runState = s.runState := rfl
@[simp] theorem State.addCycles_haltReason (n : Nat) : (s.addCycles n).haltReason = s.haltReason := rfl
@[simp] theorem State.addCycles_mem (n : Nat) : (s.addCycles n).mem = s.mem := rfl

/-! `setFlag` -/
@[simp] theorem State.setFlag_a (f : Flag) (b : Bool) : (s.setFlag f b).a = s.a := rfl
@[simp] theorem State.setFlag_x (f : Flag) (b : Bool) : (s.setFlag f b).x = s.x := rfl
@[simp] theorem State.setFlag_y (f : Flag) (b : Bool) : (s.setFlag f b).y = s.y := rfl
@[simp] theorem State.setFlag_sp (f : Flag) (b : Bool) : (s.setFlag f b).sp = s.sp := rfl
@[simp] theorem State.setFlag_pc (f : Flag) (b : Bool) : (s.setFlag f b).pc = s.pc := rfl
@[simp] theorem State.setFlag_p (f : Flag) (b : Bool) : (s.setFlag f b).p = Machine.setFlag f b s.p := rfl
@[simp] theorem State.setFlag_cycles (f : Flag) (b : Bool) : (s.setFlag f b).cycles = s.cycles := rfl
@[simp] theorem State.setFlag_runState (f : Flag) (b : Bool) : (s.setFlag f b).runState = s.runState := rfl
@[simp] theorem State.setFlag_haltReason (f : Flag) (b : Bool) : (s.setFlag f b).haltReason = s.haltReason := rfl
@[simp] theorem State.setFlag_mem (f : Flag) (b : Bool) : (s.setFlag f b).mem = s.mem := rfl

/-! `setZN` -/
@[simp] theorem State.setZN_a (v : Byte) : (s.setZN v).a = s.a := rfl
@[simp] theorem State.setZN_x (v : Byte) : (s.setZN v).x = s.x := rfl
@[simp] theorem State.setZN_y (v : Byte) : (s.setZN v).y = s.y := rfl
@[simp] theorem State.setZN_sp (v : Byte) : (s.setZN v).sp = s.sp := rfl
@[simp] theorem State.setZN_pc (v : Byte) : (s.setZN v).pc = s.pc := rfl
@[simp] theorem State.setZN_p (v : Byte) : (s.setZN v).p = Machine.setZN v s.p := rfl
@[simp] theorem State.setZN_cycles (v : Byte) : (s.setZN v).cycles = s.cycles := rfl
@[simp] theorem State.setZN_runState (v : Byte) : (s.setZN v).runState = s.runState := rfl
@[simp] theorem State.setZN_haltReason (v : Byte) : (s.setZN v).haltReason = s.haltReason := rfl
@[simp] theorem State.setZN_mem (v : Byte) : (s.setZN v).mem = s.mem := rfl

/-! `afterFetch` -/
@[simp] theorem State.afterFetch_a (n : Nat) : (s.afterFetch n).a = s.a := rfl
@[simp] theorem State.afterFetch_x (n : Nat) : (s.afterFetch n).x = s.x := rfl
@[simp] theorem State.afterFetch_y (n : Nat) : (s.afterFetch n).y = s.y := rfl
@[simp] theorem State.afterFetch_sp (n : Nat) : (s.afterFetch n).sp = s.sp := rfl
@[simp] theorem State.afterFetch_pc (n : Nat) : (s.afterFetch n).pc = s.pc + BitVec.ofNat 16 n := rfl
@[simp] theorem State.afterFetch_p (n : Nat) : (s.afterFetch n).p = s.p := rfl
@[simp] theorem State.afterFetch_cycles (n : Nat) : (s.afterFetch n).cycles = s.cycles := rfl
@[simp] theorem State.afterFetch_runState (n : Nat) : (s.afterFetch n).runState = .running := rfl
@[simp] theorem State.afterFetch_haltReason (n : Nat) : (s.afterFetch n).haltReason = s.haltReason := rfl
@[simp] theorem State.afterFetch_mem (n : Nat) : (s.afterFetch n).mem = s.mem := rfl

/-! `halt` -/
@[simp] theorem State.halt_a (r : HaltReason) : (s.halt r).a = s.a := rfl
@[simp] theorem State.halt_x (r : HaltReason) : (s.halt r).x = s.x := rfl
@[simp] theorem State.halt_y (r : HaltReason) : (s.halt r).y = s.y := rfl
@[simp] theorem State.halt_sp (r : HaltReason) : (s.halt r).sp = s.sp := rfl
@[simp] theorem State.halt_pc (r : HaltReason) : (s.halt r).pc = s.pc := rfl
@[simp] theorem State.halt_p (r : HaltReason) : (s.halt r).p = s.p := rfl
@[simp] theorem State.halt_cycles (r : HaltReason) : (s.halt r).cycles = s.cycles := rfl
@[simp] theorem State.halt_runState (r : HaltReason) : (s.halt r).runState = .halted := rfl
@[simp] theorem State.halt_haltReason (r : HaltReason) : (s.halt r).haltReason = some r := rfl
@[simp] theorem State.halt_mem (r : HaltReason) : (s.halt r).mem = s.mem := rfl

/-! `memWrite` and `push` -/
@[simp] theorem memWrite_a (addr : Addr) (v : Byte) : (memWrite s addr v).a = s.a := rfl
@[simp] theorem memWrite_x (addr : Addr) (v : Byte) : (memWrite s addr v).x = s.x := rfl
@[simp] theorem memWrite_y (addr : Addr) (v : Byte) : (memWrite s addr v).y = s.y := rfl
@[simp] theorem memWrite_sp (addr : Addr) (v : Byte) : (memWrite s addr v).sp = s.sp := rfl
@[simp] theorem memWrite_pc (addr : Addr) (v : Byte) : (memWrite s addr v).pc = s.pc := rfl
@[simp] theorem memWrite_p (addr : Addr) (v : Byte) : (memWrite s addr v).p = s.p := rfl
@[simp] theorem memWrite_cycles (addr : Addr) (v : Byte) : (memWrite s addr v).cycles = s.cycles := rfl
@[simp] theorem memWrite_runState (addr : Addr) (v : Byte) : (memWrite s addr v).runState = s.runState := rfl
@[simp] theorem memWrite_haltReason (addr : Addr) (v : Byte) : (memWrite s addr v).haltReason = s.haltReason := rfl
@[simp] theorem memWrite_mem (addr : Addr) (v : Byte) : (memWrite s addr v).mem = s.mem.set addr.toNat v := rfl
@[simp] theorem push_a (v : Byte) : (push v s).a = s.a := rfl
@[simp] theorem push_x (v : Byte) : (push v s).x = s.x := rfl
@[simp] theorem push_y (v : Byte) : (push v s).y = s.y := rfl
@[simp] theorem push_sp (v : Byte) : (push v s).sp = s.sp - 1#8 := rfl
@[simp] theorem push_pc (v : Byte) : (push v s).pc = s.pc := rfl
@[simp] theorem push_p (v : Byte) : (push v s).p = s.p := rfl
@[simp] theorem push_cycles (v : Byte) : (push v s).cycles = s.cycles := rfl
@[simp] theorem push_runState (v : Byte) : (push v s).runState = s.runState := rfl
@[simp] theorem push_haltReason (v : Byte) : (push v s).haltReason = s.haltReason := rfl
@[simp] theorem push_mem (v : Byte) : (push v s).mem = s.mem.set (stackAddr s.sp).toNat v := rfl

/-! `pull` -/
@[simp] theorem pull_fst : (pull s).1 = memRead s (stackAddr (s.sp + 1#8)) := rfl
@[simp] theorem pull_snd_a : (pull s).2.a = s.a := rfl
@[simp] theorem pull_snd_x : (pull s).2.x = s.x := rfl
@[simp] theorem pull_snd_y : (pull s).2.y = s.y := rfl
@[simp] theorem pull_snd_sp : (pull s).2.sp = s.sp + 1#8 := rfl
@[simp] theorem pull_snd_pc : (pull s).2.pc = s.pc := rfl
@[simp] theorem pull_snd_p : (pull s).2.p = s.p := rfl
@[simp] theorem pull_snd_cycles : (pull s).2.cycles = s.cycles := rfl
@[simp] theorem pull_snd_runState : (pull s).2.runState = s.runState := rfl
@[simp] theorem pull_snd_haltReason : (pull s).2.haltReason = s.haltReason := rfl
@[simp] theorem pull_snd_mem : (pull s).2.mem = s.mem := rfl

/-! A read of memory after an update that leaves memory alone. -/
@[simp] theorem memRead_setA (v : Byte) (addr : Addr) : memRead (s.setA v) addr = memRead s addr := rfl
@[simp] theorem memRead_setX (v : Byte) (addr : Addr) : memRead (s.setX v) addr = memRead s addr := rfl
@[simp] theorem memRead_setY (v : Byte) (addr : Addr) : memRead (s.setY v) addr = memRead s addr := rfl
@[simp] theorem memRead_setSp (v : Byte) (addr : Addr) : memRead (s.setSp v) addr = memRead s addr := rfl
@[simp] theorem memRead_setPc (v : Addr) (addr : Addr) : memRead (s.setPc v) addr = memRead s addr := rfl
@[simp] theorem memRead_setP (v : Byte) (addr : Addr) : memRead (s.setP v) addr = memRead s addr := rfl
@[simp] theorem memRead_setRunState (r : RunState) (addr : Addr) : memRead (s.setRunState r) addr = memRead s addr := rfl
@[simp] theorem memRead_setHaltReason (r : Option HaltReason) (addr : Addr) : memRead (s.setHaltReason r) addr = memRead s addr := rfl
@[simp] theorem memRead_addCycles (n : Nat) (addr : Addr) : memRead (s.addCycles n) addr = memRead s addr := rfl
@[simp] theorem memRead_setFlag (f : Flag) (b : Bool) (addr : Addr) : memRead (s.setFlag f b) addr = memRead s addr := rfl
@[simp] theorem memRead_setZN (v : Byte) (addr : Addr) : memRead (s.setZN v) addr = memRead s addr := rfl
@[simp] theorem memRead_afterFetch (n : Nat) (addr : Addr) : memRead (s.afterFetch n) addr = memRead s addr := rfl
@[simp] theorem memRead_halt (r : HaltReason) (addr : Addr) : memRead (s.halt r) addr = memRead s addr := rfl
@[simp] theorem memRead_pull (addr : Addr) : memRead (pull s).2 addr = memRead s addr := rfl

/-! A bit of P after an update that leaves P alone. -/
@[simp] theorem State.flag_setA (v : Byte) (g : Flag) : (s.setA v).flag g = s.flag g := rfl
@[simp] theorem State.flag_setX (v : Byte) (g : Flag) : (s.setX v).flag g = s.flag g := rfl
@[simp] theorem State.flag_setY (v : Byte) (g : Flag) : (s.setY v).flag g = s.flag g := rfl
@[simp] theorem State.flag_setSp (v : Byte) (g : Flag) : (s.setSp v).flag g = s.flag g := rfl
@[simp] theorem State.flag_setPc (v : Addr) (g : Flag) : (s.setPc v).flag g = s.flag g := rfl
@[simp] theorem State.flag_setMem (m : Memory) (g : Flag) : (s.setMem m).flag g = s.flag g := rfl
@[simp] theorem State.flag_setRunState (r : RunState) (g : Flag) : (s.setRunState r).flag g = s.flag g := rfl
@[simp] theorem State.flag_setHaltReason (r : Option HaltReason) (g : Flag) : (s.setHaltReason r).flag g = s.flag g := rfl
@[simp] theorem State.flag_addCycles (n : Nat) (g : Flag) : (s.addCycles n).flag g = s.flag g := rfl
@[simp] theorem State.flag_afterFetch (n : Nat) (g : Flag) : (s.afterFetch n).flag g = s.flag g := rfl
@[simp] theorem State.flag_halt (r : HaltReason) (g : Flag) : (s.halt r).flag g = s.flag g := rfl
@[simp] theorem State.flag_memWrite (addr : Addr) (v : Byte) (g : Flag) : (memWrite s addr v).flag g = s.flag g := rfl
@[simp] theorem State.flag_push (v : Byte) (g : Flag) : (push v s).flag g = s.flag g := rfl
@[simp] theorem State.flag_pull (g : Flag) : (pull s).2.flag g = s.flag g := rfl

end Sys2Proof.Machine
end

