-- ==== Sys2Proof/Laws/Exec.lean ====
section
/-! SUPPORT. What `exec` calls for each mnemonic, in every form it has: the one lemma a proof about a mnemonic cites instead of
splitting over all constructors. The base cycles are those of the opcode table. -/

namespace Sys2Proof.Machine

open Sys2Proof

variable {i : Instr} {s : State}

theorem exec_lda (h : i.mnemonic = .lda) : exec i s = readInstr i.operand (baseCycles i) loadA s := by
  cases i <;> first | (cases h; done) | rfl

theorem exec_ldx (h : i.mnemonic = .ldx) : exec i s = readInstr i.operand (baseCycles i) loadX s := by
  cases i <;> first | (cases h; done) | rfl

theorem exec_ldy (h : i.mnemonic = .ldy) : exec i s = readInstr i.operand (baseCycles i) loadY s := by
  cases i <;> first | (cases h; done) | rfl

theorem exec_sta (h : i.mnemonic = .sta) : exec i s = storeInstr i.operand (baseCycles i) s.a s := by
  cases i <;> first | (cases h; done) | rfl

theorem exec_stx (h : i.mnemonic = .stx) : exec i s = storeInstr i.operand (baseCycles i) s.x s := by
  cases i <;> first | (cases h; done) | rfl

theorem exec_sty (h : i.mnemonic = .sty) : exec i s = storeInstr i.operand (baseCycles i) s.y s := by
  cases i <;> first | (cases h; done) | rfl

theorem exec_tax (h : i.mnemonic = .tax) : exec i s = impliedInstr (baseCycles i) aToX s := by
  cases i <;> first | (cases h; done) | rfl

theorem exec_tay (h : i.mnemonic = .tay) : exec i s = impliedInstr (baseCycles i) aToY s := by
  cases i <;> first | (cases h; done) | rfl

theorem exec_txa (h : i.mnemonic = .txa) : exec i s = impliedInstr (baseCycles i) xToA s := by
  cases i <;> first | (cases h; done) | rfl

theorem exec_tya (h : i.mnemonic = .tya) : exec i s = impliedInstr (baseCycles i) yToA s := by
  cases i <;> first | (cases h; done) | rfl

theorem exec_tsx (h : i.mnemonic = .tsx) : exec i s = impliedInstr (baseCycles i) spToX s := by
  cases i <;> first | (cases h; done) | rfl

theorem exec_txs (h : i.mnemonic = .txs) : exec i s = impliedInstr (baseCycles i) xToSp s := by
  cases i <;> first | (cases h; done) | rfl

theorem exec_adc (h : i.mnemonic = .adc) : exec i s = readInstr i.operand (baseCycles i) addA s := by
  cases i <;> first | (cases h; done) | rfl

theorem exec_sbc (h : i.mnemonic = .sbc) : exec i s = readInstr i.operand (baseCycles i) subA s := by
  cases i <;> first | (cases h; done) | rfl

theorem exec_inc (h : i.mnemonic = .inc) : exec i s = modifyInstr i.operand (baseCycles i) incByte s := by
  cases i <;> first | (cases h; done) | rfl

theorem exec_inx (h : i.mnemonic = .inx) : exec i s = impliedInstr (baseCycles i) incX s := by
  cases i <;> first | (cases h; done) | rfl

theorem exec_iny (h : i.mnemonic = .iny) : exec i s = impliedInstr (baseCycles i) incY s := by
  cases i <;> first | (cases h; done) | rfl

theorem exec_dec (h : i.mnemonic = .dec) : exec i s = modifyInstr i.operand (baseCycles i) decByte s := by
  cases i <;> first | (cases h; done) | rfl

theorem exec_dex (h : i.mnemonic = .dex) : exec i s = impliedInstr (baseCycles i) decX s := by
  cases i <;> first | (cases h; done) | rfl

theorem exec_dey (h : i.mnemonic = .dey) : exec i s = impliedInstr (baseCycles i) decY s := by
  cases i <;> first | (cases h; done) | rfl

theorem exec_asl (h : i.mnemonic = .asl) : exec i s = modifyInstr i.operand (baseCycles i) shiftLeft s := by
  cases i <;> first | (cases h; done) | rfl

theorem exec_lsr (h : i.mnemonic = .lsr) : exec i s = modifyInstr i.operand (baseCycles i) shiftRight s := by
  cases i <;> first | (cases h; done) | rfl

theorem exec_rol (h : i.mnemonic = .rol) : exec i s = modifyInstr i.operand (baseCycles i) rotateLeft s := by
  cases i <;> first | (cases h; done) | rfl

theorem exec_ror (h : i.mnemonic = .ror) : exec i s = modifyInstr i.operand (baseCycles i) rotateRight s := by
  cases i <;> first | (cases h; done) | rfl

theorem exec_and (h : i.mnemonic = .and) : exec i s = readInstr i.operand (baseCycles i) andA s := by
  cases i <;> first | (cases h; done) | rfl

theorem exec_ora (h : i.mnemonic = .ora) : exec i s = readInstr i.operand (baseCycles i) orA s := by
  cases i <;> first | (cases h; done) | rfl

theorem exec_eor (h : i.mnemonic = .eor) : exec i s = readInstr i.operand (baseCycles i) xorA s := by
  cases i <;> first | (cases h; done) | rfl

theorem exec_bit (h : i.mnemonic = .bit) : exec i s = readInstr i.operand (baseCycles i) bitTest s := by
  cases i <;> first | (cases h; done) | rfl

theorem exec_cmp (h : i.mnemonic = .cmp) : exec i s = readInstr i.operand (baseCycles i) compareA s := by
  cases i <;> first | (cases h; done) | rfl

theorem exec_cpx (h : i.mnemonic = .cpx) : exec i s = readInstr i.operand (baseCycles i) compareX s := by
  cases i <;> first | (cases h; done) | rfl

theorem exec_cpy (h : i.mnemonic = .cpy) : exec i s = readInstr i.operand (baseCycles i) compareY s := by
  cases i <;> first | (cases h; done) | rfl

theorem exec_bcc (h : i.mnemonic = .bcc) :
    ∃ op8, i = .bcc op8 ∧ exec i s = branchInstr op8 .carry false s := by
  cases i <;> first | (cases h; done) | exact ⟨_, rfl, rfl⟩

theorem exec_bcs (h : i.mnemonic = .bcs) :
    ∃ op8, i = .bcs op8 ∧ exec i s = branchInstr op8 .carry true s := by
  cases i <;> first | (cases h; done) | exact ⟨_, rfl, rfl⟩

theorem exec_beq (h : i.mnemonic = .beq) :
    ∃ op8, i = .beq op8 ∧ exec i s = branchInstr op8 .zero true s := by
  cases i <;> first | (cases h; done) | exact ⟨_, rfl, rfl⟩

theorem exec_bne (h : i.mnemonic = .bne) :
    ∃ op8, i = .bne op8 ∧ exec i s = branchInstr op8 .zero false s := by
  cases i <;> first | (cases h; done) | exact ⟨_, rfl, rfl⟩

theorem exec_bmi (h : i.mnemonic = .bmi) :
    ∃ op8, i = .bmi op8 ∧ exec i s = branchInstr op8 .negative true s := by
  cases i <;> first | (cases h; done) | exact ⟨_, rfl, rfl⟩

theorem exec_bpl (h : i.mnemonic = .bpl) :
    ∃ op8, i = .bpl op8 ∧ exec i s = branchInstr op8 .negative false s := by
  cases i <;> first | (cases h; done) | exact ⟨_, rfl, rfl⟩

theorem exec_bvc (h : i.mnemonic = .bvc) :
    ∃ op8, i = .bvc op8 ∧ exec i s = branchInstr op8 .overflow false s := by
  cases i <;> first | (cases h; done) | exact ⟨_, rfl, rfl⟩

theorem exec_bvs (h : i.mnemonic = .bvs) :
    ∃ op8, i = .bvs op8 ∧ exec i s = branchInstr op8 .overflow true s := by
  cases i <;> first | (cases h; done) | exact ⟨_, rfl, rfl⟩

theorem exec_jmp (h : i.mnemonic = .jmp) : exec i s = jumpInstr i.operand (baseCycles i) s := by
  cases i <;> first | (cases h; done) | rfl

theorem exec_jsr (h : i.mnemonic = .jsr) :
    ∃ addr, i = .jsr addr ∧ exec i s = callInstr addr (baseCycles i) s := by
  cases i <;> first | (cases h; done) | exact ⟨_, rfl, rfl⟩

theorem exec_rts (h : i.mnemonic = .rts) : exec i s = impliedInstr (baseCycles i) returnFromSubroutine s := by
  cases i <;> first | (cases h; done) | rfl

theorem exec_rti (h : i.mnemonic = .rti) : exec i s = impliedInstr (baseCycles i) returnFromInterrupt s := by
  cases i <;> first | (cases h; done) | rfl

theorem exec_pha (h : i.mnemonic = .pha) : exec i s = impliedInstr (baseCycles i) pushA s := by
  cases i <;> first | (cases h; done) | rfl

theorem exec_php (h : i.mnemonic = .php) : exec i s = impliedInstr (baseCycles i) pushP s := by
  cases i <;> first | (cases h; done) | rfl

theorem exec_pla (h : i.mnemonic = .pla) : exec i s = impliedInstr (baseCycles i) pullA s := by
  cases i <;> first | (cases h; done) | rfl

theorem exec_plp (h : i.mnemonic = .plp) : exec i s = impliedInstr (baseCycles i) pullP s := by
  cases i <;> first | (cases h; done) | rfl

theorem exec_clc (h : i.mnemonic = .clc) : exec i s = impliedInstr (baseCycles i) (fun t => t.setFlag .carry false) s := by
  cases i <;> first | (cases h; done) | rfl

theorem exec_sec (h : i.mnemonic = .sec) : exec i s = impliedInstr (baseCycles i) (fun t => t.setFlag .carry true) s := by
  cases i <;> first | (cases h; done) | rfl

theorem exec_cli (h : i.mnemonic = .cli) : exec i s = impliedInstr (baseCycles i) (fun t => t.setFlag .irqDisable false) s := by
  cases i <;> first | (cases h; done) | rfl

theorem exec_sei (h : i.mnemonic = .sei) : exec i s = impliedInstr (baseCycles i) (fun t => t.setFlag .irqDisable true) s := by
  cases i <;> first | (cases h; done) | rfl

theorem exec_cld (h : i.mnemonic = .cld) : exec i s = impliedInstr (baseCycles i) (fun t => t.setFlag .decimal false) s := by
  cases i <;> first | (cases h; done) | rfl

theorem exec_sed (h : i.mnemonic = .sed) : exec i s = impliedInstr (baseCycles i) (fun t => t.setFlag .decimal true) s := by
  cases i <;> first | (cases h; done) | rfl

theorem exec_clv (h : i.mnemonic = .clv) : exec i s = impliedInstr (baseCycles i) (fun t => t.setFlag .overflow false) s := by
  cases i <;> first | (cases h; done) | rfl

theorem exec_nop (h : i.mnemonic = .nop) : exec i s = impliedInstr (baseCycles i) noOperation s := by
  cases i <;> first | (cases h; done) | rfl

theorem exec_brk (h : i.mnemonic = .brk) : exec i s = impliedInstr (baseCycles i) haltBreak s := by
  cases i <;> first | (cases h; done) | rfl

theorem exec_illegal (h : i.mnemonic = .illegal) :
    ∃ op, i = .illegal op ∧ exec i s = .next (takeIllegalOpcode op s.pc s) := by
  cases i <;> first | (cases h; done) | exact ⟨_, rfl, rfl⟩

end Sys2Proof.Machine
end

