-- ==== Sys2Proof/Laws/Flags.lean ====
section
/-! SUPPORT. The bits of P after each operation on it: a flag written reads as written, every other bit is kept, and the three
byte images of P (R16 to R20). -/

namespace Sys2Proof.Machine

theorem Flag.bit_lt (f : Flag) : f.bit < 8 := by cases f <;> decide

theorem Flag.bit_injective {f g : Flag} (h : f.bit = g.bit) : f = g := by cases f <;> cases g <;> first | rfl | cases h

theorem writeBit_getLsbD {k j : Nat} (b : Bool) (p : Byte) (hk : k < 8) (hj : j < 8) :
    (writeBit k b p).getLsbD j = if j = k then b else p.getLsbD j := by
  unfold writeBit
  split <;> rename_i h
  · by_cases e : j = k
    · subst e; simp [h, hj]
    · simp [e, hj]
      omega
  · have hb : b = false := by simpa using h
    by_cases e : j = k
    · subst e; simp [hb, hj]
    · simp [e, hj]
      omega

/-- Writing a flag reads back as written, for the six flags that are stored. -/
theorem getFlag_setFlag_same {f : Flag} (b : Bool) (p : Byte) (hu : f ≠ .unused) (hb : f ≠ .brk) :
    getFlag f (setFlag f b p) = b := by
  simp only [getFlag, setFlag, hu, hb, false_and, or_self, if_false]
  rw [writeBit_getLsbD _ _ f.bit_lt f.bit_lt, if_pos rfl]

/-- Writing a flag keeps every other bit. -/
theorem getFlag_setFlag_ne {f g : Flag} (b : Bool) (p : Byte) (h : g ≠ f) : getFlag g (setFlag f b p) = getFlag g p := by
  simp only [getFlag, setFlag]
  split
  · rfl
  · rw [writeBit_getLsbD _ _ f.bit_lt g.bit_lt, if_neg (fun e => h (Flag.bit_injective e))]

/-- No write of a flag clears Unused (R18). -/
theorem setFlag_keeps_unused (f : Flag) (b : Bool) {p : Byte} (h : getFlag .unused p = true) :
    getFlag .unused (setFlag f b p) = true := by
  by_cases hf : f = .unused
  · subst hf
    cases b with
    | false => simpa [setFlag] using h
    | true => simp only [getFlag, setFlag]; rw [if_neg (by simp), writeBit_getLsbD _ _ (by decide) (by decide), if_pos rfl]
  · rw [getFlag_setFlag_ne _ _ (Ne.symm hf), h]

/-- No write of a flag sets Break (R18). -/
theorem setFlag_keeps_brk (f : Flag) (b : Bool) {p : Byte} (h : getFlag .brk p = false) :
    getFlag .brk (setFlag f b p) = false := by
  by_cases hf : f = .brk
  · subst hf
    cases b with
    | true => simpa [setFlag] using h
    | false => simp only [getFlag, setFlag]; rw [if_neg (by simp), writeBit_getLsbD _ _ (by decide) (by decide), if_pos rfl]
  · rw [getFlag_setFlag_ne _ _ (Ne.symm hf), h]

@[simp] theorem getFlag_setZN_zero (v p : Byte) : getFlag .zero (setZN v p) = (v == 0#8) := by
  rw [setZN, getFlag_setFlag_ne _ _ (by decide), getFlag_setFlag_same _ _ (by decide) (by decide)]

@[simp] theorem getFlag_setZN_negative (v p : Byte) : getFlag .negative (setZN v p) = v.getLsbD 7 := by
  rw [setZN, getFlag_setFlag_same _ _ (by decide) (by decide)]

theorem getFlag_setZN_ne {g : Flag} (v p : Byte) (hz : g ≠ .zero) (hn : g ≠ .negative) :
    getFlag g (setZN v p) = getFlag g p := by
  rw [setZN, getFlag_setFlag_ne _ _ hn, getFlag_setFlag_ne _ _ hz]

/-- Every bit of P after `SetZN` (R19). -/
theorem getFlag_setZN (g : Flag) (v p : Byte) :
    getFlag g (setZN v p) = if g = .zero then v == 0#8 else if g = .negative then v.getLsbD 7 else getFlag g p := by
  split
  · subst_vars; simp
  · split
    · subst_vars; simp
    · exact getFlag_setZN_ne v p ‹_› ‹_›

/-- Every bit of P after `Compare` (R170). -/
theorem getFlag_compare (g : Flag) (reg m p : Byte) :
    getFlag g (compare reg m p) =
      if g = .negative then (reg - m).getLsbD 7 else if g = .zero then reg == m
      else if g = .carry then decide (reg.toNat ≥ m.toNat) else getFlag g p := by
  rw [compare]
  split
  · subst_vars; rw [getFlag_setFlag_same _ _ (by decide) (by decide)]
  · rw [getFlag_setFlag_ne _ _ ‹_›]
    split
    · subst_vars; rw [getFlag_setFlag_same _ _ (by decide) (by decide)]
    · rw [getFlag_setFlag_ne _ _ ‹_›]
      split
      · subst_vars; rw [getFlag_setFlag_same _ _ (by decide) (by decide)]
      · rw [getFlag_setFlag_ne _ _ ‹_›]

/-- Every bit of the byte `FromByte` makes (R20). -/
theorem getFlag_fromByte (g : Flag) (b : Byte) :
    getFlag g (fromByte b) = if g = .unused then true else if g = .brk then false else getFlag g b := by
  cases g <;> simp [getFlag, fromByte, Flag.bit]

/-- Every bit of the byte PHP pushes (R20). -/
theorem getFlag_pushByteSoftware (g : Flag) (p : Byte) :
    getFlag g (pushByteSoftware p) = if g = .unused ∨ g = .brk then true else getFlag g p := by
  cases g <;> simp [getFlag, pushByteSoftware, Flag.bit]

/-- The byte an interrupt pushes is the byte `FromByte` makes (R20). -/
theorem pushByteInterrupt_eq_fromByte (p : Byte) : pushByteInterrupt p = fromByte p := rfl

/-- Two bytes with the same eight flags are the same byte. -/
theorem eq_of_getFlag_eq {p q : Byte} (h : ∀ f, getFlag f p = getFlag f q) : p = q := by
  apply BitVec.eq_of_getLsbD_eq
  intro i hi
  match i, hi with
  | 0, _ => exact h .carry
  | 1, _ => exact h .zero
  | 2, _ => exact h .irqDisable
  | 3, _ => exact h .decimal
  | 4, _ => exact h .brk
  | 5, _ => exact h .unused
  | 6, _ => exact h .overflow
  | 7, _ => exact h .negative

/-- P in the form of R18 is left alone by `FromByte`. -/
theorem fromByte_of_form {p : Byte} (hu : getFlag .unused p = true) (hb : getFlag .brk p = false) : fromByte p = p := by
  apply eq_of_getFlag_eq
  intro f
  rw [getFlag_fromByte]
  split
  · subst_vars; exact hu.symm
  · split
    · subst_vars; exact hb.symm
    · rfl

/-! The same, for the P of a state. -/

theorem State.flag_setFlag_same (s : State) {f : Flag} (b : Bool) (hu : f ≠ .unused) (hb : f ≠ .brk) :
    (s.setFlag f b).flag f = b := getFlag_setFlag_same b s.p hu hb

theorem State.flag_setFlag_ne (s : State) {f g : Flag} (b : Bool) (h : g ≠ f) : (s.setFlag f b).flag g = s.flag g :=
  getFlag_setFlag_ne b s.p h

theorem State.flag_setZN (s : State) (v : Byte) (g : Flag) :
    (s.setZN v).flag g = if g = .zero then v == 0#8 else if g = .negative then v.getLsbD 7 else s.flag g :=
  getFlag_setZN g v s.p

theorem State.flag_setP (s : State) (v : Byte) (g : Flag) : (s.setP v).flag g = getFlag g v := rfl

end Sys2Proof.Machine
end

