-- ==== Sys2Proof/Laws/Memory.lean ====
section
/-! SUPPORT. Memory as a list of cells: a read after a write to the same address gives the byte written, a write leaves every
other address alone, every operation keeps the canonical form, and memories in canonical form that read alike are equal. -/

namespace Sys2Proof.Machine

/-! ### Reading after writing, in every list of cells -/

theorem Memory.get_insert_same (m : Memory) (k : Nat) (v : Byte) : (m.insert k v).get k = v := by
  induction m with
  | nil => simp [Memory.insert, Memory.get]
  | cons c m ih =>
    obtain ⟨j, w⟩ := c
    simp only [Memory.insert]
    split
    · simp [Memory.get]
    · split
      · simp [Memory.get]
      · have : j ≠ k := by omega
        simp [Memory.get, this, ih]

theorem Memory.get_insert_ne (m : Memory) {k k' : Nat} (v : Byte) (h : k' ≠ k) : (m.insert k v).get k' = m.get k' := by
  induction m with
  | nil => simp [Memory.insert, Memory.get, Ne.symm h]
  | cons c m ih =>
    obtain ⟨j, w⟩ := c
    simp only [Memory.insert]
    split
    · simp [Memory.get, Ne.symm h]
    · split
      · subst_vars
        simp [Memory.get, Ne.symm h]
      · simp [Memory.get, ih]

theorem Memory.get_filter_same (m : Memory) (k : Nat) :
    Memory.get (m.filter (fun c => c.1 != k)) k = Config.initialByte := by
  induction m with
  | nil => rfl
  | cons c m ih =>
    by_cases hc : c.1 = k
    · simpa [List.filter_cons, hc] using ih
    · simpa [List.filter_cons, hc, Memory.get] using ih

theorem Memory.get_filter_ne (m : Memory) {k k' : Nat} (h : k' ≠ k) :
    Memory.get (m.filter (fun c => c.1 != k)) k' = m.get k' := by
  induction m with
  | nil => rfl
  | cons c m ih =>
    by_cases hc : c.1 = k
    · have : c.1 ≠ k' := by omega
      simpa [List.filter_cons, hc, Memory.get, Ne.symm h] using ih
    · simp [hc, Memory.get, ih]

@[simp] theorem Memory.get_set_same (m : Memory) (k : Nat) (v : Byte) : (m.set k v).get k = v := by
  unfold Memory.set
  split
  · rw [Memory.get_filter_same]; exact Eq.symm ‹_›
  · exact Memory.get_insert_same m k v

theorem Memory.get_set_ne (m : Memory) {k k' : Nat} (v : Byte) (h : k' ≠ k) : (m.set k v).get k' = m.get k' := by
  unfold Memory.set
  split
  · exact Memory.get_filter_ne m h
  · exact Memory.get_insert_ne m v h

theorem Memory.get_set (m : Memory) (k k' : Nat) (v : Byte) :
    (m.set k v).get k' = if k' = k then v else m.get k' := by
  split
  · subst_vars; simp
  · exact Memory.get_set_ne m v ‹_›

@[simp] theorem memRead_memWrite_same (s : State) (addr : Addr) (v : Byte) : memRead (memWrite s addr v) addr = v := by
  simp [memRead]

theorem memRead_memWrite_ne (s : State) {addr other : Addr} (v : Byte) (h : other ≠ addr) :
    memRead (memWrite s addr v) other = memRead s other := by
  refine Memory.get_set_ne _ v ?_
  intro e
  exact h (BitVec.eq_of_toNat_eq e)

theorem memRead_memWrite (s : State) (addr other : Addr) (v : Byte) :
    memRead (memWrite s addr v) other = if other = addr then v else memRead s other := by
  split
  · subst_vars; simp
  · exact memRead_memWrite_ne s v ‹_›

theorem memRead_push (v : Byte) (s : State) (addr : Addr) :
    memRead (push v s) addr = if addr = stackAddr s.sp then v else memRead s addr := by
  show memRead (memWrite s (stackAddr s.sp) v) addr = _
  exact memRead_memWrite s _ addr v

/-! ### The canonical form -/

theorem Memory.wfFrom_cons {lo k : Nat} {v : Byte} {m : Memory} :
    Memory.wfFrom lo ((k, v) :: m) = true ↔
      lo ≤ k ∧ k < Config.memSize ∧ v ≠ Config.initialByte ∧ Memory.wfFrom (k + 1) m = true := by
  simp [Memory.wfFrom, and_assoc]

theorem Memory.wfFrom_mono {lo lo' : Nat} {m : Memory} (h : lo' ≤ lo) (hm : m.wfFrom lo = true) : m.wfFrom lo' = true := by
  cases m with
  | nil => rfl
  | cons c m =>
    obtain ⟨k, v⟩ := c
    rw [Memory.wfFrom_cons] at hm ⊢
    exact ⟨by omega, hm.2⟩

theorem Memory.wfFrom_insert {lo k : Nat} {v : Byte} {m : Memory} (hk : k < Config.memSize) (hv : v ≠ Config.initialByte)
    (hlo : lo ≤ k) (hm : m.wfFrom lo = true) : (m.insert k v).wfFrom lo = true := by
  induction m generalizing lo with
  | nil => simp [Memory.insert, Memory.wfFrom, hk, hv, hlo]
  | cons c m ih =>
    obtain ⟨j, w⟩ := c
    rw [Memory.wfFrom_cons] at hm
    obtain ⟨hj, hjs, hw, hm⟩ := hm
    simp only [Memory.insert]
    split
    · simp only [Memory.wfFrom_cons]
      exact ⟨hlo, hk, hv, by omega, hjs, hw, hm⟩
    · split
      · subst_vars
        exact Memory.wfFrom_cons.2 ⟨hlo, hk, hv, hm⟩
      · exact Memory.wfFrom_cons.2 ⟨hj, hjs, hw, ih (by omega) hm⟩

theorem Memory.wfFrom_filter {lo : Nat} {m : Memory} (p : Host.Cell → Bool) (hm : m.wfFrom lo = true) :
    Memory.wfFrom lo (m.filter p) = true := by
  induction m generalizing lo with
  | nil => rfl
  | cons c m ih =>
    obtain ⟨j, w⟩ := c
    rw [Memory.wfFrom_cons] at hm
    obtain ⟨hj, hjs, hw, hm⟩ := hm
    by_cases hp : p (j, w) = true
    · rw [List.filter_cons_of_pos hp]
      exact Memory.wfFrom_cons.2 ⟨hj, hjs, hw, ih hm⟩
    · rw [List.filter_cons_of_neg hp]
      exact Memory.wfFrom_mono (by omega) (ih hm)

/-- Writing one byte keeps the canonical form. -/
theorem Memory.wf_set {m : Memory} {k : Nat} (v : Byte) (hk : k < Config.memSize) (hm : m.wf = true) :
    (m.set k v).wf = true := by
  unfold Memory.set
  split
  · exact Memory.wfFrom_filter _ hm
  · exact Memory.wfFrom_insert hk ‹_› (Nat.zero_le _) hm

theorem addr_toNat_lt (addr : Addr) : addr.toNat < Config.memSize := addr.isLt

theorem memWrite_wf {s : State} (addr : Addr) (v : Byte) (h : s.mem.wf = true) : (memWrite s addr v).mem.wf = true :=
  Memory.wf_set v (addr_toNat_lt addr) h

theorem push_wf {s : State} (v : Byte) (h : s.mem.wf = true) : (push v s).mem.wf = true := memWrite_wf _ v h

theorem loadBytes_wf {s : State} (origin : Addr) (bytes : List Byte) (h : s.mem.wf = true) :
    (loadBytes origin bytes s).mem.wf = true := by
  induction bytes generalizing s origin with
  | nil => exact h
  | cons b rest ih => exact ih _ (memWrite_wf origin b h)

theorem placeBytes_wf {s : State} (b0 b1 b2 : Byte) (h : s.mem.wf = true) : (placeBytes b0 b1 b2 s).mem.wf = true :=
  memWrite_wf _ _ (memWrite_wf _ _ (memWrite_wf _ _ h))

theorem interruptEntry_wf {s : State} (vector : Addr) (h : s.mem.wf = true) : (interruptEntry vector s).mem.wf = true :=
  push_wf (pushByteInterrupt s.p) (push_wf (loByte s.pc) (push_wf (hiByte s.pc) h))

theorem applyWrites_wf {m : Memory} (as : List Access) (h : m.wf = true) : (applyWrites as m).wf = true := by
  induction as generalizing m with
  | nil => exact h
  | cons a as ih =>
    cases a with
    | read addr v => exact ih h
    | write addr v => exact ih (Memory.wf_set v (addr_toNat_lt addr) h)

/-- The memory of the machine right after reset has the canonical form. -/
theorem reset_mem_wf : State.reset.mem.wf = true := rfl

theorem Memory.get_eq_initial_of_lt {lo k : Nat} {m : Memory} (hm : m.wfFrom lo = true) (hk : k < lo) :
    m.get k = Config.initialByte := by
  induction m generalizing lo with
  | nil => rfl
  | cons c m ih =>
    obtain ⟨j, w⟩ := c
    rw [Memory.wfFrom_cons] at hm
    have : j ≠ k := by omega
    simp only [Memory.get, this, if_false]
    exact ih hm.2.2.2 (by omega)

/-- Memories in canonical form that hold the same byte at every address are the same list. -/
theorem Memory.ext_of_wfFrom {lo : Nat} {m n : Memory} (hm : m.wfFrom lo = true) (hn : n.wfFrom lo = true)
    (h : ∀ k, m.get k = n.get k) : m = n := by
  induction m generalizing lo n with
  | nil =>
    cases n with
    | nil => rfl
    | cons c n =>
      obtain ⟨k, v⟩ := c
      have := h k
      simp only [Memory.get, if_true] at this
      exact absurd this.symm (Memory.wfFrom_cons.1 hn).2.2.1
  | cons c m ih =>
    obtain ⟨j, w⟩ := c
    obtain ⟨hj, -, hw, hm'⟩ := Memory.wfFrom_cons.1 hm
    cases n with
    | nil =>
      have := h j
      simp only [Memory.get, if_true] at this
      exact absurd this hw
    | cons d n =>
      obtain ⟨k, v⟩ := d
      obtain ⟨hk, -, hv, hn'⟩ := Memory.wfFrom_cons.1 hn
      have hjk : j = k := by
        by_contra hne
        rcases Nat.lt_or_gt_of_ne hne with hlt | hgt
        · have := h j
          simp only [Memory.get, if_true, Ne.symm hne, if_false] at this
          exact hw (this.trans (Memory.get_eq_initial_of_lt hn' (by omega)))
        · have := h k
          simp only [Memory.get, if_true, hne, if_false] at this
          exact hv (this.symm.trans (Memory.get_eq_initial_of_lt hm' (by omega)))
      subst hjk
      have hwv : w = v := by simpa [Memory.get] using h j
      subst hwv
      refine congrArg _ (ih hm' hn' fun i => ?_)
      by_cases hi : i = j
      · subst hi
        rw [Memory.get_eq_initial_of_lt hm' (by omega), Memory.get_eq_initial_of_lt hn' (by omega)]
      · simpa [Memory.get, Ne.symm hi] using h i

end Sys2Proof.Machine
end

