-- ==== Sys2Proof/Laws/Operands.lean ====
section
/-! SUPPORT. Where a result goes and which instructions have which operands: the writing of a result field by field, and the
operand forms of the read-modify-write and implied instructions. -/

namespace Sys2Proof.Machine

open Sys2Proof

/-! ### Writing a result -/

@[simp] theorem putResult_x (o : Operand) (r : Byte) (s : State) : (putResult o r s).x = s.x := by cases o <;> rfl
@[simp] theorem putResult_y (o : Operand) (r : Byte) (s : State) : (putResult o r s).y = s.y := by cases o <;> rfl
@[simp] theorem putResult_sp (o : Operand) (r : Byte) (s : State) : (putResult o r s).sp = s.sp := by cases o <;> rfl
@[simp] theorem putResult_pc (o : Operand) (r : Byte) (s : State) : (putResult o r s).pc = s.pc := by cases o <;> rfl
@[simp] theorem putResult_p (o : Operand) (r : Byte) (s : State) : (putResult o r s).p = s.p := by cases o <;> rfl
@[simp] theorem putResult_cycles (o : Operand) (r : Byte) (s : State) : (putResult o r s).cycles = s.cycles := by
  cases o <;> rfl
@[simp] theorem putResult_runState (o : Operand) (r : Byte) (s : State) : (putResult o r s).runState = s.runState := by
  cases o <;> rfl
@[simp] theorem putResult_haltReason (o : Operand) (r : Byte) (s : State) : (putResult o r s).haltReason = s.haltReason := by
  cases o <;> rfl

/-- To A and nothing else. -/
theorem putResult_acc (r : Byte) (s : State) : putResult .acc r s = s.setA r := rfl

/-- To the resolved address and nothing else (R105). -/
theorem putResult_of_ne_acc {o : Operand} (h : o ≠ .acc) (r : Byte) (s : State) :
    putResult o r s = memWrite s (resolve o s).ea r := by
  cases o <;> first | rfl | exact absurd rfl h

/-- The operand read of a form that is in memory (R105). -/
theorem operandByte_of_mem {o : Operand} (ha : o ≠ .acc) (hi : ∀ v, o ≠ .imm v) (s : State) :
    operandByte o s = memRead s (resolve o s).ea := by
  cases o <;> first | rfl | exact absurd rfl ha | exact absurd rfl (hi _)

/-! ### Which operand an instruction has -/

/-- INC and DEC have no accumulator form (R75). -/
theorem operand_ne_acc_of_incDec {i : Instr} (h : i.mnemonic = .inc ∨ i.mnemonic = .dec) : i.operand ≠ .acc := by
  cases i <;> first | (intro e; cases e; done) | (rcases h with h | h <;> cases h)

/-- No read-modify-write instruction has an immediate form (R75). -/
theorem operand_ne_imm_of_modify {i : Instr}
    (h : i.mnemonic ∈ [Mnemonic.inc, .dec, .asl, .lsr, .rol, .ror]) (v : Byte) : i.operand ≠ .imm v := by
  cases i <;> first | (intro e; cases e; done) | exact absurd h (by simp [Instr.mnemonic])

/-- The instructions whose one form is a single byte (R73, R91). -/
theorem length_of_implied {i : Instr}
    (h : i.mnemonic ∈ [Mnemonic.tax, .tay, .txa, .tya, .tsx, .txs, .inx, .iny, .dex, .dey, .clc, .sec, .cli, .sei, .cld, .sed,
      .clv, .nop, .brk, .pha, .php, .pla, .plp, .rts, .rti]) : i.operand.length = 1 := by
  cases i <;> first | rfl | exact absurd h (by simp [Instr.mnemonic])

/-- The encoder writes as many bytes as the operand form is long (R70). -/
theorem encode_length (i : Instr) : (encode i).length = i.operand.length := by cases i <;> rfl

end Sys2Proof.Machine
end

