-- ==== Sys2Proof/Laws/Ops.lean ====
section
/-! SUPPORT. What each shared operation can do, said once: the instruction shapes, the exception, the interrupt entry and the
return from it, a step, and the host's calls. -/

namespace Sys2Proof.Machine

open Sys2Proof

variable {s t : State}

/-! ### The shapes of instruction: what state they answer -/

theorem readInstr_next {o : Operand} {base : Nat} {f : Byte → State → State} (h : readInstr o base f s = .next t) :
    t = (f (operandByte o (s.afterFetch o.length)) (s.afterFetch o.length)).addCycles
      (base + if (resolve o (s.afterFetch o.length)).crossed then 1 else 0) := by
  cases h; rfl

theorem storeInstr_next {o : Operand} {base : Nat} {v : Byte} (h : storeInstr o base v s = .next t) :
    t = (memWrite (s.afterFetch o.length) (resolve o (s.afterFetch o.length)).ea v).addCycles base := by
  cases h; rfl

theorem modifyInstr_next {o : Operand} {base : Nat} {f : Byte → Byte → Byte × Byte} (h : modifyInstr o base f s = .next t) :
    t = ((putResult o (f (operandByte o (s.afterFetch o.length)) s.p).1 (s.afterFetch o.length)).setP
      (f (operandByte o (s.afterFetch o.length)) s.p).2).addCycles base := by
  cases h; rfl

theorem impliedInstr_next {base : Nat} {f : State → State} (h : impliedInstr base f s = .next t) :
    t = (f (s.afterFetch 1)).addCycles base := by
  cases h; rfl

theorem jumpInstr_next {o : Operand} {base : Nat} (h : jumpInstr o base s = .next t) :
    t = ((s.afterFetch o.length).setPc (resolve o (s.afterFetch o.length)).ea).addCycles base := by
  cases h; rfl

/-- A branch is taken, or not taken (R180). -/
theorem branchInstr_next {op8 : Byte} {f : Flag} {v : Bool} (h : branchInstr op8 f v s = .next t) :
    (s.flag f = v ∧ t = ((s.afterFetch 2).setPc (s.pc + 2#16 + sext16 op8)).addCycles
        (2 + (1 + if crossedPage (s.pc + 2#16) (s.pc + 2#16 + sext16 op8) then 1 else 0))) ∨
      (s.flag f ≠ v ∧ t = (s.afterFetch 2).addCycles 2) := by
  simp only [branchInstr] at h
  split at h
  · cases h; exact .inl ⟨‹_›, rfl⟩
  · cases h; exact .inr ⟨‹_›, rfl⟩

/-- JSR pushes the two bytes of the address of its own last byte and jumps (R192). -/
theorem callInstr_next {addr : Addr} {base : Nat} (h : callInstr addr base s = .next t) :
    t = ((push (loByte (s.pc + 3#16 - 1#16)) (push (hiByte (s.pc + 3#16 - 1#16)) (s.afterFetch 3))).setPc addr).addCycles base := by
  cases h; rfl

/-! ### Where a resolved address comes from -/

theorem resolve_crossed_afterFetch (o : Operand) (s : State) (n : Nat) :
    (resolve o (s.afterFetch n)).crossed = (resolve o s).crossed := by
  cases o <;> rfl

theorem operandByte_afterFetch (o : Operand) (s : State) (n : Nat) (h : ∀ op8, o ≠ .rel op8) :
    operandByte o (s.afterFetch n) = operandByte o s := by
  cases o <;> first | rfl | exact absurd rfl (h _)

/-! ### Returns -/

theorem returnFromSubroutine_eq (s : State) :
    returnFromSubroutine s =
      (s.setSp (s.sp + 1#8 + 1#8)).setPc (word (memRead s (stackAddr (s.sp + 1#8 + 1#8))) (memRead s (stackAddr (s.sp + 1#8))) + 1#16) :=
  rfl

theorem returnFromInterrupt_eq (s : State) :
    returnFromInterrupt s =
      ((s.setSp (s.sp + 1#8 + 1#8 + 1#8)).setP (fromByte (memRead s (stackAddr (s.sp + 1#8))))).setPc
        (word (memRead s (stackAddr (s.sp + 1#8 + 1#8 + 1#8))) (memRead s (stackAddr (s.sp + 1#8 + 1#8)))) := rfl

/-! ### The exception and the interrupt entry, field by field -/

@[simp] theorem takeIllegalOpcode_pc (op : Byte) (at' : Addr) (s : State) : (takeIllegalOpcode op at' s).pc = at' := rfl
@[simp] theorem takeIllegalOpcode_runState (op : Byte) (at' : Addr) (s : State) :
    (takeIllegalOpcode op at' s).runState = .halted := rfl
@[simp] theorem takeIllegalOpcode_haltReason (op : Byte) (at' : Addr) (s : State) :
    (takeIllegalOpcode op at' s).haltReason = some (.illegalOpcode op at') := rfl

/-- IllegalOpcode changes PC, the run state and the halt reason and nothing else (R221). -/
theorem takeIllegalOpcode_frame (op : Byte) (at' : Addr) (s : State) :
    takeIllegalOpcode op at' s =
      { s with pc := at', runState := .halted, haltReason := some (.illegalOpcode op at') } := rfl

@[simp] theorem interruptEntry_a (v : Addr) (s : State) : (interruptEntry v s).a = s.a := by
  simp [interruptEntry]
@[simp] theorem interruptEntry_x (v : Addr) (s : State) : (interruptEntry v s).x = s.x := by
  simp [interruptEntry]
@[simp] theorem interruptEntry_y (v : Addr) (s : State) : (interruptEntry v s).y = s.y := by
  simp [interruptEntry]
@[simp] theorem interruptEntry_sp (v : Addr) (s : State) : (interruptEntry v s).sp = s.sp - 1#8 - 1#8 - 1#8 := rfl
@[simp] theorem interruptEntry_p (v : Addr) (s : State) :
    (interruptEntry v s).p = Machine.setFlag .irqDisable true s.p := rfl
@[simp] theorem interruptEntry_cycles (v : Addr) (s : State) :
    (interruptEntry v s).cycles = s.cycles + Config.interruptEntryCycles := by
  simp [interruptEntry]
@[simp] theorem interruptEntry_runState (v : Addr) (s : State) : (interruptEntry v s).runState = .interrupted := rfl
@[simp] theorem interruptEntry_haltReason (v : Addr) (s : State) : (interruptEntry v s).haltReason = none := rfl
@[simp] theorem interruptEntry_mem (v : Addr) (s : State) :
    (interruptEntry v s).mem = (push (pushByteInterrupt s.p) (push (loByte s.pc) (push (hiByte s.pc) s))).mem := rfl
theorem interruptEntry_pc (v : Addr) (s : State) :
    (interruptEntry v s).pc =
      memRead16 (push (pushByteInterrupt s.p) (push (loByte s.pc) (push (hiByte s.pc) s))) v := rfl

/-! ### A step and the calls -/

/-- What a step can do (R232): refused before reset, nothing on a halted core, else the instruction at PC. -/
theorem step_cases (s : State) :
    (s.runState = .unreset ∧ step s = .refused .beforeReset) ∨ (s.runState = .halted ∧ step s = .next s) ∨
      (Fetching s ∧ step s = exec (fetchInstr s) s) := by
  unfold step stepBody
  cases h : s.runState <;> simp [Fetching, h]

theorem step_of_fetching (h : Fetching s) : step s = exec (fetchInstr s) s := by
  rcases step_cases s with h' | h' | h'
  · exact absurd h'.1 h.1
  · exact absurd h'.1 h.2
  · exact h'.2

/-- An interrupt request that is not refused is dropped while I = 1 and is an entry while I = 0 (R225). -/
theorem triggerIrq_cases (s : State) :
    (s.runState = .unreset ∧ triggerIrq s = .refused .beforeReset) ∨
      (Started s ∧ s.flag .irqDisable = true ∧ triggerIrq s = .next (s, 0)) ∨
      (Started s ∧ s.flag .irqDisable = false ∧
        triggerIrq s = .next (interruptEntry Config.irqVector s, Config.interruptEntryCycles)) := by
  unfold triggerIrq
  by_cases h : s.runState = .unreset
  · simp [h]
  · cases hf : s.flag .irqDisable <;> simp [h]

theorem triggerNmi_cases (s : State) :
    (s.runState = .unreset ∧ triggerNmi s = .refused .beforeReset) ∨
      (Started s ∧ triggerNmi s = .next (interruptEntry Config.nmiVector s, Config.interruptEntryCycles)) := by
  unfold triggerNmi
  by_cases h : s.runState = .unreset <;> simp [h]

/-- `load` is refused for an image of more than 65,536 bytes and else stores it (R45). -/
theorem load_cases (origin : Addr) (bytes : List Byte) (s : State) :
    (bytes.length ≤ Config.memSize ∧ load origin bytes s = .next (loadBytes origin bytes s)) ∨
      (Config.memSize < bytes.length ∧ load origin bytes s = .refused (.imageTooLong bytes.length)) := by
  unfold load
  by_cases h : bytes.length ≤ Config.memSize
  · simp [h]
  · exact .inr ⟨by omega, by simp [h]⟩

/-- `loadBytes` writes memory and nothing else. -/
theorem loadBytes_frame (origin : Addr) (bytes : List Byte) (s : State) :
    loadBytes origin bytes s = s.setMem (loadBytes origin bytes s).mem := by
  induction bytes generalizing s origin with
  | nil => rfl
  | cons b rest ih =>
    show loadBytes (origin + 1) rest (memWrite s origin b) = _
    rw [ih]; rfl

end Sys2Proof.Machine
end

