-- ==== Sys2Proof/Laws/PerInstr.lean ====
section
/-! SUPPORT. The statements made per instruction (LAWS.json "per_instruction"). `WordLength`: the encoder writes exactly as many
bytes as the decoder's table gives the opcode (R70, R71, R79). One lemma for each constructor. -/

namespace Sys2Proof.Laws

/-- The first byte `encode` writes selects, in the decoder's table, exactly the operand bytes `encode` writes after it. -/
def WordLength.Statement (i : Instr) : Prop :=
  i.wf = true → (encode i).length = 1 + operandWidth i.opcode

theorem WordLength.ldaImm (v : Byte) : WordLength.Statement (.ldaImm v) := fun _ => rfl
theorem WordLength.ldaZp (op8 : Byte) : WordLength.Statement (.ldaZp op8) := fun _ => rfl
theorem WordLength.ldaZpx (op8 : Byte) : WordLength.Statement (.ldaZpx op8) := fun _ => rfl
theorem WordLength.ldaAbs (addr : Addr) : WordLength.Statement (.ldaAbs addr) := fun _ => rfl
theorem WordLength.ldaAbx (addr : Addr) : WordLength.Statement (.ldaAbx addr) := fun _ => rfl
theorem WordLength.ldaAby (addr : Addr) : WordLength.Statement (.ldaAby addr) := fun _ => rfl
theorem WordLength.ldaIzx (op8 : Byte) : WordLength.Statement (.ldaIzx op8) := fun _ => rfl
theorem WordLength.ldaIzy (op8 : Byte) : WordLength.Statement (.ldaIzy op8) := fun _ => rfl
theorem WordLength.ldxImm (v : Byte) : WordLength.Statement (.ldxImm v) := fun _ => rfl
theorem WordLength.ldxZp (op8 : Byte) : WordLength.Statement (.ldxZp op8) := fun _ => rfl
theorem WordLength.ldxZpy (op8 : Byte) : WordLength.Statement (.ldxZpy op8) := fun _ => rfl
theorem WordLength.ldxAbs (addr : Addr) : WordLength.Statement (.ldxAbs addr) := fun _ => rfl
theorem WordLength.ldxAby (addr : Addr) : WordLength.Statement (.ldxAby addr) := fun _ => rfl
theorem WordLength.ldyImm (v : Byte) : WordLength.Statement (.ldyImm v) := fun _ => rfl
theorem WordLength.ldyZp (op8 : Byte) : WordLength.Statement (.ldyZp op8) := fun _ => rfl
theorem WordLength.ldyZpx (op8 : Byte) : WordLength.Statement (.ldyZpx op8) := fun _ => rfl
theorem WordLength.ldyAbs (addr : Addr) : WordLength.Statement (.ldyAbs addr) := fun _ => rfl
theorem WordLength.ldyAbx (addr : Addr) : WordLength.Statement (.ldyAbx addr) := fun _ => rfl
theorem WordLength.staZp (op8 : Byte) : WordLength.Statement (.staZp op8) := fun _ => rfl
theorem WordLength.staZpx (op8 : Byte) : WordLength.Statement (.staZpx op8) := fun _ => rfl
theorem WordLength.staAbs (addr : Addr) : WordLength.Statement (.staAbs addr) := fun _ => rfl
theorem WordLength.staAbx (addr : Addr) : WordLength.Statement (.staAbx addr) := fun _ => rfl
theorem WordLength.staAby (addr : Addr) : WordLength.Statement (.staAby addr) := fun _ => rfl
theorem WordLength.staIzx (op8 : Byte) : WordLength.Statement (.staIzx op8) := fun _ => rfl
theorem WordLength.staIzy (op8 : Byte) : WordLength.Statement (.staIzy op8) := fun _ => rfl
theorem WordLength.stxZp (op8 : Byte) : WordLength.Statement (.stxZp op8) := fun _ => rfl
theorem WordLength.stxZpy (op8 : Byte) : WordLength.Statement (.stxZpy op8) := fun _ => rfl
theorem WordLength.stxAbs (addr : Addr) : WordLength.Statement (.stxAbs addr) := fun _ => rfl
theorem WordLength.styZp (op8 : Byte) : WordLength.Statement (.styZp op8) := fun _ => rfl
theorem WordLength.styZpx (op8 : Byte) : WordLength.Statement (.styZpx op8) := fun _ => rfl
theorem WordLength.styAbs (addr : Addr) : WordLength.Statement (.styAbs addr) := fun _ => rfl
theorem WordLength.tax : WordLength.Statement .tax := fun _ => rfl
theorem WordLength.tay : WordLength.Statement .tay := fun _ => rfl
theorem WordLength.txa : WordLength.Statement .txa := fun _ => rfl
theorem WordLength.tya : WordLength.Statement .tya := fun _ => rfl
theorem WordLength.tsx : WordLength.Statement .tsx := fun _ => rfl
theorem WordLength.txs : WordLength.Statement .txs := fun _ => rfl
theorem WordLength.adcImm (v : Byte) : WordLength.Statement (.adcImm v) := fun _ => rfl
theorem WordLength.adcZp (op8 : Byte) : WordLength.Statement (.adcZp op8) := fun _ => rfl
theorem WordLength.adcZpx (op8 : Byte) : WordLength.Statement (.adcZpx op8) := fun _ => rfl
theorem WordLength.adcAbs (addr : Addr) : WordLength.Statement (.adcAbs addr) := fun _ => rfl
theorem WordLength.adcAbx (addr : Addr) : WordLength.Statement (.adcAbx addr) := fun _ => rfl
theorem WordLength.adcAby (addr : Addr) : WordLength.Statement (.adcAby addr) := fun _ => rfl
theorem WordLength.adcIzx (op8 : Byte) : WordLength.Statement (.adcIzx op8) := fun _ => rfl
theorem WordLength.adcIzy (op8 : Byte) : WordLength.Statement (.adcIzy op8) := fun _ => rfl
theorem WordLength.sbcImm (v : Byte) : WordLength.Statement (.sbcImm v) := fun _ => rfl
theorem WordLength.sbcZp (op8 : Byte) : WordLength.Statement (.sbcZp op8) := fun _ => rfl
theorem WordLength.sbcZpx (op8 : Byte) : WordLength.Statement (.sbcZpx op8) := fun _ => rfl
theorem WordLength.sbcAbs (addr : Addr) : WordLength.Statement (.sbcAbs addr) := fun _ => rfl
theorem WordLength.sbcAbx (addr : Addr) : WordLength.Statement (.sbcAbx addr) := fun _ => rfl
theorem WordLength.sbcAby (addr : Addr) : WordLength.Statement (.sbcAby addr) := fun _ => rfl
theorem WordLength.sbcIzx (op8 : Byte) : WordLength.Statement (.sbcIzx op8) := fun _ => rfl
theorem WordLength.sbcIzy (op8 : Byte) : WordLength.Statement (.sbcIzy op8) := fun _ => rfl
theorem WordLength.incZp (op8 : Byte) : WordLength.Statement (.incZp op8) := fun _ => rfl
theorem WordLength.incZpx (op8 : Byte) : WordLength.Statement (.incZpx op8) := fun _ => rfl
theorem WordLength.incAbs (addr : Addr) : WordLength.Statement (.incAbs addr) := fun _ => rfl
theorem WordLength.incAbx (addr : Addr) : WordLength.Statement (.incAbx addr) := fun _ => rfl
theorem WordLength.inx : WordLength.Statement .inx := fun _ => rfl
theorem WordLength.iny : WordLength.Statement .iny := fun _ => rfl
theorem WordLength.decZp (op8 : Byte) : WordLength.Statement (.decZp op8) := fun _ => rfl
theorem WordLength.decZpx (op8 : Byte) : WordLength.Statement (.decZpx op8) := fun _ => rfl
theorem WordLength.decAbs (addr : Addr) : WordLength.Statement (.decAbs addr) := fun _ => rfl
theorem WordLength.decAbx (addr : Addr) : WordLength.Statement (.decAbx addr) := fun _ => rfl
theorem WordLength.dex : WordLength.Statement .dex := fun _ => rfl
theorem WordLength.dey : WordLength.Statement .dey := fun _ => rfl
theorem WordLength.aslAcc : WordLength.Statement .aslAcc := fun _ => rfl
theorem WordLength.aslZp (op8 : Byte) : WordLength.Statement (.aslZp op8) := fun _ => rfl
theorem WordLength.aslZpx (op8 : Byte) : WordLength.Statement (.aslZpx op8) := fun _ => rfl
theorem WordLength.aslAbs (addr : Addr) : WordLength.Statement (.aslAbs addr) := fun _ => rfl
theorem WordLength.aslAbx (addr : Addr) : WordLength.Statement (.aslAbx addr) := fun _ => rfl
theorem WordLength.lsrAcc : WordLength.Statement .lsrAcc := fun _ => rfl
theorem WordLength.lsrZp (op8 : Byte) : WordLength.Statement (.lsrZp op8) := fun _ => rfl
theorem WordLength.lsrZpx (op8 : Byte) : WordLength.Statement (.lsrZpx op8) := fun _ => rfl
theorem WordLength.lsrAbs (addr : Addr) : WordLength.Statement (.lsrAbs addr) := fun _ => rfl
theorem WordLength.lsrAbx (addr : Addr) : WordLength.Statement (.lsrAbx addr) := fun _ => rfl
theorem WordLength.rolAcc : WordLength.Statement .rolAcc := fun _ => rfl
theorem WordLength.rolZp (op8 : Byte) : WordLength.Statement (.rolZp op8) := fun _ => rfl
theorem WordLength.rolZpx (op8 : Byte) : WordLength.Statement (.rolZpx op8) := fun _ => rfl
theorem WordLength.rolAbs (addr : Addr) : WordLength.Statement (.rolAbs addr) := fun _ => rfl
theorem WordLength.rolAbx (addr : Addr) : WordLength.Statement (.rolAbx addr) := fun _ => rfl
theorem WordLength.rorAcc : WordLength.Statement .rorAcc := fun _ => rfl
theorem WordLength.rorZp (op8 : Byte) : WordLength.Statement (.rorZp op8) := fun _ => rfl
theorem WordLength.rorZpx (op8 : Byte) : WordLength.Statement (.rorZpx op8) := fun _ => rfl
theorem WordLength.rorAbs (addr : Addr) : WordLength.Statement (.rorAbs addr) := fun _ => rfl
theorem WordLength.rorAbx (addr : Addr) : WordLength.Statement (.rorAbx addr) := fun _ => rfl
theorem WordLength.andImm (v : Byte) : WordLength.Statement (.andImm v) := fun _ => rfl
theorem WordLength.andZp (op8 : Byte) : WordLength.Statement (.andZp op8) := fun _ => rfl
theorem WordLength.andZpx (op8 : Byte) : WordLength.Statement (.andZpx op8) := fun _ => rfl
theorem WordLength.andAbs (addr : Addr) : WordLength.Statement (.andAbs addr) := fun _ => rfl
theorem WordLength.andAbx (addr : Addr) : WordLength.Statement (.andAbx addr) := fun _ => rfl
theorem WordLength.andAby (addr : Addr) : WordLength.Statement (.andAby addr) := fun _ => rfl
theorem WordLength.andIzx (op8 : Byte) : WordLength.Statement (.andIzx op8) := fun _ => rfl
theorem WordLength.andIzy (op8 : Byte) : WordLength.Statement (.andIzy op8) := fun _ => rfl
theorem WordLength.oraImm (v : Byte) : WordLength.Statement (.oraImm v) := fun _ => rfl
theorem WordLength.oraZp (op8 : Byte) : WordLength.Statement (.oraZp op8) := fun _ => rfl
theorem WordLength.oraZpx (op8 : Byte) : WordLength.Statement (.oraZpx op8) := fun _ => rfl
theorem WordLength.oraAbs (addr : Addr) : WordLength.Statement (.oraAbs addr) := fun _ => rfl
theorem WordLength.oraAbx (addr : Addr) : WordLength.Statement (.oraAbx addr) := fun _ => rfl
theorem WordLength.oraAby (addr : Addr) : WordLength.Statement (.oraAby addr) := fun _ => rfl
theorem WordLength.oraIzx (op8 : Byte) : WordLength.Statement (.oraIzx op8) := fun _ => rfl
theorem WordLength.oraIzy (op8 : Byte) : WordLength.Statement (.oraIzy op8) := fun _ => rfl
theorem WordLength.eorImm (v : Byte) : WordLength.Statement (.eorImm v) := fun _ => rfl
theorem WordLength.eorZp (op8 : Byte) : WordLength.Statement (.eorZp op8) := fun _ => rfl
theorem WordLength.eorZpx (op8 : Byte) : WordLength.Statement (.eorZpx op8) := fun _ => rfl
theorem WordLength.eorAbs (addr : Addr) : WordLength.Statement (.eorAbs addr) := fun _ => rfl
theorem WordLength.eorAbx (addr : Addr) : WordLength.Statement (.eorAbx addr) := fun _ => rfl
theorem WordLength.eorAby (addr : Addr) : WordLength.Statement (.eorAby addr) := fun _ => rfl
theorem WordLength.eorIzx (op8 : Byte) : WordLength.Statement (.eorIzx op8) := fun _ => rfl
theorem WordLength.eorIzy (op8 : Byte) : WordLength.Statement (.eorIzy op8) := fun _ => rfl
theorem WordLength.bitZp (op8 : Byte) : WordLength.Statement (.bitZp op8) := fun _ => rfl
theorem WordLength.bitAbs (addr : Addr) : WordLength.Statement (.bitAbs addr) := fun _ => rfl
theorem WordLength.cmpImm (v : Byte) : WordLength.Statement (.cmpImm v) := fun _ => rfl
theorem WordLength.cmpZp (op8 : Byte) : WordLength.Statement (.cmpZp op8) := fun _ => rfl
theorem WordLength.cmpZpx (op8 : Byte) : WordLength.Statement (.cmpZpx op8) := fun _ => rfl
theorem WordLength.cmpAbs (addr : Addr) : WordLength.Statement (.cmpAbs addr) := fun _ => rfl
theorem WordLength.cmpAbx (addr : Addr) : WordLength.Statement (.cmpAbx addr) := fun _ => rfl
theorem WordLength.cmpAby (addr : Addr) : WordLength.Statement (.cmpAby addr) := fun _ => rfl
theorem WordLength.cmpIzx (op8 : Byte) : WordLength.Statement (.cmpIzx op8) := fun _ => rfl
theorem WordLength.cmpIzy (op8 : Byte) : WordLength.Statement (.cmpIzy op8) := fun _ => rfl
theorem WordLength.cpxImm (v : Byte) : WordLength.Statement (.cpxImm v) := fun _ => rfl
theorem WordLength.cpxZp (op8 : Byte) : WordLength.Statement (.cpxZp op8) := fun _ => rfl
theorem WordLength.cpxAbs (addr : Addr) : WordLength.Statement (.cpxAbs addr) := fun _ => rfl
theorem WordLength.cpyImm (v : Byte) : WordLength.Statement (.cpyImm v) := fun _ => rfl
theorem WordLength.cpyZp (op8 : Byte) : WordLength.Statement (.cpyZp op8) := fun _ => rfl
theorem WordLength.cpyAbs (addr : Addr) : WordLength.Statement (.cpyAbs addr) := fun _ => rfl
theorem WordLength.bcc (op8 : Byte) : WordLength.Statement (.bcc op8) := fun _ => rfl
theorem WordLength.bcs (op8 : Byte) : WordLength.Statement (.bcs op8) := fun _ => rfl
theorem WordLength.beq (op8 : Byte) : WordLength.Statement (.beq op8) := fun _ => rfl
theorem WordLength.bne (op8 : Byte) : WordLength.Statement (.bne op8) := fun _ => rfl
theorem WordLength.bmi (op8 : Byte) : WordLength.Statement (.bmi op8) := fun _ => rfl
theorem WordLength.bpl (op8 : Byte) : WordLength.Statement (.bpl op8) := fun _ => rfl
theorem WordLength.bvc (op8 : Byte) : WordLength.Statement (.bvc op8) := fun _ => rfl
theorem WordLength.bvs (op8 : Byte) : WordLength.Statement (.bvs op8) := fun _ => rfl
theorem WordLength.jmpAbs (addr : Addr) : WordLength.Statement (.jmpAbs addr) := fun _ => rfl
theorem WordLength.jmpInd (addr : Addr) : WordLength.Statement (.jmpInd addr) := fun _ => rfl
theorem WordLength.jsr (addr : Addr) : WordLength.Statement (.jsr addr) := fun _ => rfl
theorem WordLength.rts : WordLength.Statement .rts := fun _ => rfl
theorem WordLength.rti : WordLength.Statement .rti := fun _ => rfl
theorem WordLength.pha : WordLength.Statement .pha := fun _ => rfl
theorem WordLength.php : WordLength.Statement .php := fun _ => rfl
theorem WordLength.pla : WordLength.Statement .pla := fun _ => rfl
theorem WordLength.plp : WordLength.Statement .plp := fun _ => rfl
theorem WordLength.clc : WordLength.Statement .clc := fun _ => rfl
theorem WordLength.sec : WordLength.Statement .sec := fun _ => rfl
theorem WordLength.cli : WordLength.Statement .cli := fun _ => rfl
theorem WordLength.sei : WordLength.Statement .sei := fun _ => rfl
theorem WordLength.cld : WordLength.Statement .cld := fun _ => rfl
theorem WordLength.sed : WordLength.Statement .sed := fun _ => rfl
theorem WordLength.clv : WordLength.Statement .clv := fun _ => rfl
theorem WordLength.nop : WordLength.Statement .nop := fun _ => rfl
theorem WordLength.brk : WordLength.Statement .brk := fun _ => rfl

/-- All 256 values of an opcode byte, so that R77's list and the table can be compared by computation. -/
theorem operandWidth_of_illegal : ∀ k < 256, isIllegalOpcode (BitVec.ofNat 8 k) = true → operandWidth (BitVec.ofNat 8 k) = 0 := by
  decide +kernel

theorem WordLength.illegal (op : Byte) : WordLength.Statement (.illegal op) := by
  intro h
  have := operandWidth_of_illegal op.toNat op.isLt
  simp only [BitVec.ofNat_toNat, BitVec.setWidth_eq] at this
  simp [encode, Instr.opcode, this h]

end Sys2Proof.Laws
end

