-- ==== Sys2Proof/Machine/Assembly.lean ====
section
/-! DEFINITION. The assembler text of an instruction (spec/30_encoding.md R80, R81), as characters. It is notation for people:
no meaning, no state and no access depends on it. -/

namespace Sys2Proof.Machine

/-- One hexadecimal digit. -/
def hexDigit (n : Nat) : Char := ['0', '1', '2', '3', '4', '5', '6', '7', '8', '9', 'A', 'B', 'C', 'D', 'E', 'F'].getD n '?'

/-- A byte as `$nn`. -/
def hexByte (b : Byte) : List Char := ['$', hexDigit (b.toNat / 16), hexDigit (b.toNat % 16)]

/-- An address as `$nnnn`. -/
def hexAddr (a : Addr) : List Char :=
  ['$', hexDigit (a.toNat / 4096), hexDigit (a.toNat / 256 % 16), hexDigit (a.toNat / 16 % 16), hexDigit (a.toNat % 16)]

/-- The three capital letters of a mnemonic (R75, R80); an illegal opcode has none (R77). -/
def mnemonicText (m : Sys2Proof.Mnemonic) : List Char :=
  match m with
  | .lda => ['L', 'D', 'A']
  | .ldx => ['L', 'D', 'X']
  | .ldy => ['L', 'D', 'Y']
  | .sta => ['S', 'T', 'A']
  | .stx => ['S', 'T', 'X']
  | .sty => ['S', 'T', 'Y']
  | .tax => ['T', 'A', 'X']
  | .tay => ['T', 'A', 'Y']
  | .txa => ['T', 'X', 'A']
  | .tya => ['T', 'Y', 'A']
  | .tsx => ['T', 'S', 'X']
  | .txs => ['T', 'X', 'S']
  | .adc => ['A', 'D', 'C']
  | .sbc => ['S', 'B', 'C']
  | .inc => ['I', 'N', 'C']
  | .inx => ['I', 'N', 'X']
  | .iny => ['I', 'N', 'Y']
  | .dec => ['D', 'E', 'C']
  | .dex => ['D', 'E', 'X']
  | .dey => ['D', 'E', 'Y']
  | .asl => ['A', 'S', 'L']
  | .lsr => ['L', 'S', 'R']
  | .rol => ['R', 'O', 'L']
  | .ror => ['R', 'O', 'R']
  | .and => ['A', 'N', 'D']
  | .ora => ['O', 'R', 'A']
  | .eor => ['E', 'O', 'R']
  | .bit => ['B', 'I', 'T']
  | .cmp => ['C', 'M', 'P']
  | .cpx => ['C', 'P', 'X']
  | .cpy => ['C', 'P', 'Y']
  | .bcc => ['B', 'C', 'C']
  | .bcs => ['B', 'C', 'S']
  | .beq => ['B', 'E', 'Q']
  | .bne => ['B', 'N', 'E']
  | .bmi => ['B', 'M', 'I']
  | .bpl => ['B', 'P', 'L']
  | .bvc => ['B', 'V', 'C']
  | .bvs => ['B', 'V', 'S']
  | .jmp => ['J', 'M', 'P']
  | .jsr => ['J', 'S', 'R']
  | .rts => ['R', 'T', 'S']
  | .rti => ['R', 'T', 'I']
  | .pha => ['P', 'H', 'A']
  | .php => ['P', 'H', 'P']
  | .pla => ['P', 'L', 'A']
  | .plp => ['P', 'L', 'P']
  | .clc => ['C', 'L', 'C']
  | .sec => ['S', 'E', 'C']
  | .cli => ['C', 'L', 'I']
  | .sei => ['S', 'E', 'I']
  | .cld => ['C', 'L', 'D']
  | .sed => ['S', 'E', 'D']
  | .clv => ['C', 'L', 'V']
  | .nop => ['N', 'O', 'P']
  | .brk => ['B', 'R', 'K']
  | .illegal => []

/-- The operand of R80, with the space before it. A branch shows its target, so the text depends on the address `at'` of the
instruction. -/
def operandText (o : Sys2Proof.Operand) (at' : Addr) : List Char :=
  match o with
  | .imp => []
  | .acc => [' ', 'A']
  | .imm v => [' ', '#'] ++ hexByte v
  | .zp op8 => ' ' :: hexByte op8
  | .zpx op8 => ' ' :: hexByte op8 ++ [',', 'X']
  | .zpy op8 => ' ' :: hexByte op8 ++ [',', 'Y']
  | .abs addr => ' ' :: hexAddr addr
  | .abx addr => ' ' :: hexAddr addr ++ [',', 'X']
  | .aby addr => ' ' :: hexAddr addr ++ [',', 'Y']
  | .ind ptr => [' ', '('] ++ hexAddr ptr ++ [')']
  | .izx op8 => [' ', '('] ++ hexByte op8 ++ [',', 'X', ')']
  | .izy op8 => [' ', '('] ++ hexByte op8 ++ [')', ',', 'Y']
  | .rel op8 => ' ' :: hexAddr (at' + 2#16 + sext16 op8)

/-- The assembler text of an instruction at an address (R80). -/
def assemblyText (i : Sys2Proof.Instr) (at' : Addr) : List Char := mnemonicText i.mnemonic ++ operandText i.operand at'

end Sys2Proof.Machine
end

