-- ==== Sys2Proof/Tests/Slice0.lean ====
section
/-! SUPPORT. This model's own tests: the smoke test of WellFormed, words written out from spec/30_encoding.md R75, one step from
rows of spec/95_test_vectors.md, and a witness for the hypotheses of each statement. -/

open Sys2Proof Sys2Proof.Machine

namespace Sys2Proof.Tests

/-! ### Small states -/

/-- The reset state of spec/95_test_vectors.md section 0: the code at `at'`, the cells set, the reset vector naming `at'`. -/
def loaded (at' : Addr) (code : List Byte) (cells : List (Addr × Byte)) : State :=
  let s := loadBytes at' code (loadBytes 0xFFFC [loByte at', hiByte at'] State.reset)
  resetCore (cells.foldl (fun s c => memWrite s c.1 c.2) s)

/-- Some fields of the state after one step, none where there is no next state. -/
def after {α : Type} (s : State) (f : State → α) : Option α :=
  match step s with
  | .next t => some (f t)
  | .fault _ => none
  | .refused _ => none

/-- Some fields of the state a report leaves, with the number it reports. -/
def reported {α : Type} (r : Report) (f : State → α) : Option (α × Nat) :=
  match r with
  | .next (t, n) => some (f t, n)
  | .fault _ => none
  | .refused _ => none

/-- What `run` reports: the cycles used, why it stopped, and PC. -/
def ran (budget : Nat) (s : State) : Option (Nat × Stop × Addr) :=
  match run budget s with
  | .next (t, used, stop) => some (used, stop, t.pc)
  | .fault _ => none
  | .refused _ => none

/-! ### WellFormed: the one check, on terms it refuses and terms it accepts -/

theorem test_wf_refuses_illegal_of_official_opcode : (Instr.illegal 0xA9).wf = false := by decide
theorem test_wf_refuses_illegal_of_brk : (Instr.illegal 0x00).wf = false := by decide
theorem test_wf_accepts_illegal : (Instr.illegal 0x02).wf = true ∧ (Instr.illegal 0xFF).wf = true := by decide
theorem test_wf_accepts_every_operand : (Instr.ldaImm 0xFF).wf = true ∧ (Instr.staAbx 0xFFFF).wf = true := by decide

/-! ### Decode: bytes written out from the opcode map of R75, the operand low byte first (R47) -/

theorem test_decode_load_store_1 : decode [0xA9, 0x10] = .ok (.ldaImm 0x10, []) := rfl
theorem test_decode_load_store_2 : decode [0xBC, 0xFF, 0x12] = .ok (.ldyAbx 0x12FF, []) := rfl
theorem test_decode_load_store_3 : decode [0x91, 0x86] = .ok (.staIzy 0x86, []) := rfl
theorem test_decode_load_store_4 : decode [0x96, 0x10] = .ok (.stxZpy 0x10, []) := rfl
theorem test_decode_transfer_1 : decode [0xAA] = .ok (.tax, []) := rfl
theorem test_decode_transfer_2 : decode [0x98] = .ok (.tya, []) := rfl
theorem test_decode_transfer_3 : decode [0x9A] = .ok (.txs, []) := rfl
theorem test_decode_arithmetic_1 : decode [0x6D, 0x34, 0x12] = .ok (.adcAbs 0x1234, []) := rfl
theorem test_decode_arithmetic_2 : decode [0xE1, 0x20] = .ok (.sbcIzx 0x20, []) := rfl
theorem test_decode_arithmetic_3 : decode [0x79, 0x34, 0x12] = .ok (.adcAby 0x1234, []) := rfl
theorem test_decode_inc_dec_1 : decode [0xF6, 0x10] = .ok (.incZpx 0x10, []) := rfl
theorem test_decode_inc_dec_2 : decode [0xCE, 0x00, 0x02] = .ok (.decAbs 0x0200, []) := rfl
theorem test_decode_inc_dec_3 : decode [0xCA] = .ok (.dex, []) := rfl
theorem test_decode_inc_dec_4 : decode [0xC8] = .ok (.iny, []) := rfl
theorem test_decode_shift_rotate_1 : decode [0x0A] = .ok (.aslAcc, []) := rfl
theorem test_decode_shift_rotate_2 : decode [0x5E, 0x00, 0x03] = .ok (.lsrAbx 0x0300, []) := rfl
theorem test_decode_shift_rotate_3 : decode [0x26, 0x10] = .ok (.rolZp 0x10, []) := rfl
theorem test_decode_shift_rotate_4 : decode [0x6A] = .ok (.rorAcc, []) := rfl
theorem test_decode_logical_1 : decode [0x39, 0x34, 0x12] = .ok (.andAby 0x1234, []) := rfl
theorem test_decode_logical_2 : decode [0x15, 0x10] = .ok (.oraZpx 0x10, []) := rfl
theorem test_decode_logical_3 : decode [0x41, 0x20] = .ok (.eorIzx 0x20, []) := rfl
theorem test_decode_logical_4 : decode [0x24, 0x10] = .ok (.bitZp 0x10, []) := rfl
theorem test_decode_compare_1 : decode [0xD1, 0x86] = .ok (.cmpIzy 0x86, []) := rfl
theorem test_decode_compare_2 : decode [0xEC, 0x34, 0x12] = .ok (.cpxAbs 0x1234, []) := rfl
theorem test_decode_compare_3 : decode [0xC0, 0x10] = .ok (.cpyImm 0x10, []) := rfl
theorem test_decode_branch_1 : decode [0x90, 0x02] = .ok (.bcc 0x02, []) := rfl
theorem test_decode_branch_2 : decode [0xF0, 0xFE] = .ok (.beq 0xFE, []) := rfl
theorem test_decode_branch_3 : decode [0x30, 0x80] = .ok (.bmi 0x80, []) := rfl
theorem test_decode_branch_4 : decode [0x50, 0x04] = .ok (.bvc 0x04, []) := rfl
theorem test_decode_jump_call_1 : decode [0x4C, 0x00, 0x90] = .ok (.jmpAbs 0x9000, []) := rfl
theorem test_decode_jump_call_2 : decode [0x6C, 0xFF, 0x02] = .ok (.jmpInd 0x02FF, []) := rfl
theorem test_decode_jump_call_3 : decode [0x20, 0x00, 0x90] = .ok (.jsr 0x9000, []) := rfl
theorem test_decode_jump_call_4 : decode [0x60] = .ok (.rts, []) := rfl
theorem test_decode_stack_flags_system_1 : decode [0x48] = .ok (.pha, []) := rfl
theorem test_decode_stack_flags_system_2 : decode [0x28] = .ok (.plp, []) := rfl
theorem test_decode_stack_flags_system_3 : decode [0xB8] = .ok (.clv, []) := rfl
theorem test_decode_stack_flags_system_4 : decode [0xF8] = .ok (.sed, []) := rfl
theorem test_decode_stack_flags_system_5 : decode [0xEA] = .ok (.nop, []) := rfl
theorem test_decode_stack_flags_system_6 : decode [0x00] = .ok (.brk, []) := rfl
theorem test_decode_illegal_takes_one_byte : decode [0x80, 0x12] = .ok (.illegal 0x80, [0x12]) := rfl
theorem test_decode_keeps_the_rest : decode [0xA9, 0x10, 0x60] = .ok (.ldaImm 0x10, [0x60]) := rfl
theorem test_decode_rejects_no_bytes : decode [] = .error .noBytes := rfl
theorem test_decode_rejects_missing_operand : decode [0x8D, 0x00] = .error (.operandMissing 0x8D) := rfl

/-! ### The host's two questions, on a few rows of the table -/

theorem test_table_word_brk : decodeTableWord 8 0x00 = some .brk := by decide
theorem test_table_word_jsr : decodeTableWord 8 0x20 = some (.jsr 0x0000) := by decide
theorem test_table_word_illegal : decodeTableWord 8 0xFF = some (.illegal 0xFF) := by decide
theorem test_table_word_operand_byte : decodeTableWord 16 0x10A9 = some (.ldaImm 0x10) := by decide
theorem test_table_word_runs_first :
    after (State.reset.withFetchWord 8 0xE8) (fun t => (t.x, t.pc, t.cycles)) = some (0x01, 0x0001, 2) := by decide
theorem test_table_word_runs_illegal :
    after (State.reset.withFetchWord 8 0x02) (fun t => (t.pc, t.haltReason)) =
      some (0x0000, some (.illegalOpcode 0x02 0x0000)) := by decide

/-! ### spec/95_test_vectors.md 2.1 Loads, stores, transfers and the addressing modes -/

/-- Row "LDA #$00". -/
theorem test_lda_zero : after (loaded 0x8000 [0xA9, 0x00] []) (fun t =>
    (t.p, t.cycles)) =
      some (0x26, 2) := by decide

/-- Row "LDA #$80". -/
theorem test_lda_negative : after (loaded 0x8000 [0xA9, 0x80] []) (fun t =>
    (t.a, t.p, t.cycles)) =
      some (0x80, 0xA4, 2) := by decide

/-- Row "LDA $F0,X wraps in page 0". -/
theorem test_lda_zpx_wraps : after { loaded 0x8000 [0xB5, 0xF0] [(0x0010, 0x77), (0x0110, 0x99)] with x := 0x20 } (fun t =>
    (t.a, t.p, t.cycles)) =
      some (0x77, 0x24, 4) := by decide

/-- Row "LDA $12F0,X page cross". -/
theorem test_lda_abx_crosses : after { loaded 0x8000 [0xBD, 0xF0, 0x12] [(0x1310, 0x5A)] with x := 0x20 } (fun t =>
    (t.a, t.p, t.cycles)) =
      some (0x5A, 0x24, 5) := by decide

/-- Row "LDA $1234,Y no cross". -/
theorem test_lda_aby : after { loaded 0x8000 [0xB9, 0x34, 0x12] [(0x1235, 0x5B)] with y := 0x01 } (fun t =>
    (t.a, t.p, t.cycles)) =
      some (0x5B, 0x24, 4) := by decide

/-- Row "LDA $FFFF,X wraps to 0x0001". -/
theorem test_lda_abx_wraps : after { loaded 0x8000 [0xBD, 0xFF, 0xFF] [(0x0001, 0x66)] with x := 0x02 } (fun t =>
    (t.a, t.p, t.cycles)) =
      some (0x66, 0x24, 5) := by decide

/-- Row "LDA ($20,X)". -/
theorem test_lda_izx : after { loaded 0x8000 [0xA1, 0x20] [(0x0024, 0x74), (0x0025, 0x20), (0x2074, 0xAB)] with x := 0x04 } (fun t =>
    (t.a, t.p, t.cycles)) =
      some (0xAB, 0xA4, 6) := by decide

/-- Row "LDA ($FF,X) X=0 pointer wraps". -/
theorem test_lda_izx_pointer_wraps : after { loaded 0x8000 [0xA1, 0xFF] [(0x00FF, 0x34), (0x0000, 0x12), (0x0100, 0x99), (0x1234, 0xCD)] with x := 0x00 } (fun t =>
    (t.a, t.p, t.cycles)) =
      some (0xCD, 0xA4, 6) := by decide

/-- Row "LDA ($86),Y cross". -/
theorem test_lda_izy_crosses : after { loaded 0x8000 [0xB1, 0x86] [(0x0086, 0x28), (0x0087, 0x40), (0x4108, 0x3D)] with y := 0xE0 } (fun t =>
    (t.a, t.p, t.cycles)) =
      some (0x3D, 0x24, 6) := by decide

/-- Row "LDA ($FF),Y pointer wraps". -/
theorem test_lda_izy_pointer_wraps : after { loaded 0x8000 [0xB1, 0xFF] [(0x00FF, 0x00), (0x0000, 0x30), (0x0100, 0x99), (0x3001, 0x42)] with y := 0x01 } (fun t =>
    (t.a, t.p, t.cycles)) =
      some (0x42, 0x24, 5) := by decide

/-- Row "LDX $10,Y". -/
theorem test_ldx_zpy : after { loaded 0x8000 [0xB6, 0x10] [(0x0015, 0x80)] with y := 0x05 } (fun t =>
    (t.x, t.p, t.cycles)) =
      some (0x80, 0xA4, 4) := by decide

/-- Row "LDY $1200,X cross". -/
theorem test_ldy_abx_crosses : after { loaded 0x8000 [0xBC, 0xFF, 0x12] [(0x1300, 0x00)] with x := 0x01 } (fun t =>
    (t.p, t.cycles)) =
      some (0x26, 5) := by decide

/-- Row "STA $12F0,X (5 cycles, cross or not)". -/
theorem test_sta_abx : after { loaded 0x8000 [0x9D, 0xF0, 0x12] [] with a := 0x42, x := 0x20 } (fun t =>
    (t.p, memRead t 0x1310, t.cycles)) =
      some (0x24, 0x42, 5) := by decide

/-- Row "STA ($86),Y". -/
theorem test_sta_izy : after { loaded 0x8000 [0x91, 0x86] [(0x0086, 0x28), (0x0087, 0x40)] with a := 0x99, y := 0xE0 } (fun t =>
    (t.p, memRead t 0x4108, t.cycles)) =
      some (0x24, 0x99, 6) := by decide

/-- Row "STX $10,Y". -/
theorem test_stx_zpy : after { loaded 0x8000 [0x96, 0x10] [] with x := 0x07, y := 0x01 } (fun t =>
    (t.p, memRead t 0x0011, t.cycles)) =
      some (0x24, 0x07, 4) := by decide

/-- Row "STY $1234". -/
theorem test_sty_abs : after { loaded 0x8000 [0x8C, 0x34, 0x12] [] with y := 0xFF } (fun t =>
    (t.p, memRead t 0x1234, t.cycles)) =
      some (0x24, 0xFF, 4) := by decide

/-- Row "TAX A=00". -/
theorem test_tax : after { loaded 0x8000 [0xAA] [] with a := 0x00, x := 0x55 } (fun t =>
    (t.x, t.p, t.cycles)) =
      some (0x00, 0x26, 2) := by decide

/-- Row "TAY A=90". -/
theorem test_tay : after { loaded 0x8000 [0xA8] [] with a := 0x90 } (fun t =>
    (t.y, t.p, t.cycles)) =
      some (0x90, 0xA4, 2) := by decide

/-- Row "TXA". -/
theorem test_txa : after { loaded 0x8000 [0x8A] [] with x := 0x01, a := 0xFF } (fun t =>
    (t.a, t.p, t.cycles)) =
      some (0x01, 0x24, 2) := by decide

/-- Row "TYA". -/
theorem test_tya : after { loaded 0x8000 [0x98] [] with y := 0xFF } (fun t =>
    (t.a, t.p, t.cycles)) =
      some (0xFF, 0xA4, 2) := by decide

/-- Row "TSX". -/
theorem test_tsx : after (loaded 0x8000 [0xBA] []) (fun t =>
    (t.x, t.p, t.cycles)) =
      some (0xFD, 0xA4, 2) := by decide

/-- Row "TXS X=00 (Z not set)". -/
theorem test_txs_sets_no_flag : after { loaded 0x8000 [0x9A] [] with x := 0x00 } (fun t =>
    (t.sp, t.p, t.cycles)) =
      some (0x00, 0x24, 2) := by decide

/-! ### spec/95_test_vectors.md 2.2 ADC and SBC -/

/-- Row "ADC #$50 (D00 case)". -/
theorem test_adc_signed_overflow : after { loaded 0x8000 [0x69, 0x50] [] with a := 0x50 } (fun t =>
    (t.a, t.p, t.cycles)) =
      some (0xA0, 0xE4, 2) := by decide

/-- Row "ADC #$FF C=1". -/
theorem test_adc_carry_in_and_out : after { loaded 0x8000 [0x69, 0xFF] [] with a := 0xFF, p := 0x25 } (fun t =>
    (t.p, t.cycles)) =
      some (0xA5, 2) := by decide

/-- Row "ADC #$01 D=1 (binary)". -/
theorem test_adc_ignores_decimal : after { loaded 0x8000 [0x69, 0x01] [] with a := 0x09, p := 0x2C } (fun t =>
    (t.a, t.p, t.cycles)) =
      some (0x0A, 0x2C, 2) := by decide

/-- Row "SBC #$F0 C=1". -/
theorem test_sbc_borrows : after { loaded 0x8000 [0xE9, 0xF0] [] with a := 0x50, p := 0x25 } (fun t =>
    (t.a, t.p, t.cycles)) =
      some (0x60, 0x24, 2) := by decide

/-- Row "SBC #$01 C=1 (80)". -/
theorem test_sbc_signed_overflow : after { loaded 0x8000 [0xE9, 0x01] [] with a := 0x80, p := 0x25 } (fun t =>
    (t.a, t.p, t.cycles)) =
      some (0x7F, 0x65, 2) := by decide

/-! ### spec/95_test_vectors.md 2.3 Increment and decrement -/

/-- Row "INC $10 (FF) C kept". -/
theorem test_inc_wraps_keeps_carry : after { loaded 0x8000 [0xE6, 0x10] [(0x0010, 0xFF)] with p := 0x25 } (fun t =>
    (t.p, memRead t 0x0010, t.cycles)) =
      some (0x27, 0x00, 5) := by decide

/-- Row "INC $12FF,X (7 cycles)". -/
theorem test_inc_abx : after { loaded 0x8000 [0xFE, 0xFF, 0x12] [(0x1300, 0x09)] with x := 0x01 } (fun t =>
    (t.p, memRead t 0x1300, t.cycles)) =
      some (0x24, 0x0A, 7) := by decide

/-- Row "DEC $10 (00)". -/
theorem test_dec_wraps : after (loaded 0x8000 [0xC6, 0x10] [(0x0010, 0x00)]) (fun t =>
    (t.p, memRead t 0x0010, t.cycles)) =
      some (0xA4, 0xFF, 5) := by decide

/-- Row "INX FF". -/
theorem test_inx_wraps : after { loaded 0x8000 [0xE8] [] with x := 0xFF } (fun t =>
    (t.x, t.p, t.cycles)) =
      some (0x00, 0x26, 2) := by decide

/-- Row "INY 7F". -/
theorem test_iny_sign : after { loaded 0x8000 [0xC8] [] with y := 0x7F } (fun t =>
    (t.y, t.p, t.cycles)) =
      some (0x80, 0xA4, 2) := by decide

/-- Row "DEX 00". -/
theorem test_dex_wraps : after { loaded 0x8000 [0xCA] [] with x := 0x00 } (fun t =>
    (t.x, t.p, t.cycles)) =
      some (0xFF, 0xA4, 2) := by decide

/-- Row "DEY 03". -/
theorem test_dey : after { loaded 0x8000 [0x88] [] with y := 0x03 } (fun t =>
    (t.y, t.p, t.cycles)) =
      some (0x02, 0x24, 2) := by decide

/-! ### spec/95_test_vectors.md 2.4 Shifts and rotates -/

/-- Row "ASL A (80)". -/
theorem test_asl_acc : after { loaded 0x8000 [0x0A] [] with a := 0x80 } (fun t =>
    (t.a, t.p, t.cycles)) =
      some (0x00, 0x27, 2) := by decide

/-- Row "LSR $10 (02)". -/
theorem test_lsr_zp : after (loaded 0x8000 [0x46, 0x10] [(0x0010, 0x02)]) (fun t =>
    (t.p, memRead t 0x0010, t.cycles)) =
      some (0x24, 0x01, 5) := by decide

/-- Row "LSR A (FF) N was 1". -/
theorem test_lsr_clears_n : after { loaded 0x8000 [0x4A] [] with a := 0xFF, p := 0xA4 } (fun t =>
    (t.a, t.p, t.cycles)) =
      some (0x7F, 0x25, 2) := by decide

/-- Row "ROL A (40) C=1". -/
theorem test_rol_takes_old_carry : after { loaded 0x8000 [0x2A] [] with a := 0x40, p := 0x25 } (fun t =>
    (t.a, t.p, t.cycles)) =
      some (0x81, 0xA4, 2) := by decide

/-- Row "ROL A (80) C=0". -/
theorem test_rol_carry_out : after { loaded 0x8000 [0x2A] [] with a := 0x80 } (fun t =>
    (t.a, t.p, t.cycles)) =
      some (0x00, 0x27, 2) := by decide

/-- Row "ROR $0300 (03) C=0". -/
theorem test_ror_abs : after (loaded 0x8000 [0x6E, 0x00, 0x03] [(0x0300, 0x03)]) (fun t =>
    (t.p, memRead t 0x0300, t.cycles)) =
      some (0x25, 0x01, 6) := by decide

/-- Row "ROR A (00) C=1". -/
theorem test_ror_takes_old_carry : after { loaded 0x8000 [0x6A] [] with a := 0x00, p := 0x25 } (fun t =>
    (t.a, t.p, t.cycles)) =
      some (0x80, 0xA4, 2) := by decide

/-- Row "ASL $10,X (6 cycles)". -/
theorem test_asl_zpx : after { loaded 0x8000 [0x16, 0x10] [(0x0011, 0xC0)] with x := 0x01 } (fun t =>
    (t.p, memRead t 0x0011, t.cycles)) =
      some (0xA5, 0x80, 6) := by decide

/-! ### spec/95_test_vectors.md 2.5 Logical operations and BIT -/

/-- Row "AND #$0F". -/
theorem test_and : after { loaded 0x8000 [0x29, 0x0F] [] with a := 0x3C } (fun t =>
    (t.a, t.p, t.cycles)) =
      some (0x0C, 0x24, 2) := by decide

/-- Row "ORA #$80". -/
theorem test_ora : after { loaded 0x8000 [0x09, 0x80] [] with a := 0x01 } (fun t =>
    (t.a, t.p, t.cycles)) =
      some (0x81, 0xA4, 2) := by decide

/-- Row "EOR #$AA (A=AA)". -/
theorem test_eor : after { loaded 0x8000 [0x49, 0xAA] [] with a := 0xAA } (fun t =>
    (t.a, t.p, t.cycles)) =
      some (0x00, 0x26, 2) := by decide

/-- Row "BIT $1234 (C0) A=01". -/
theorem test_bit_abs : after { loaded 0x8000 [0x2C, 0x34, 0x12] [(0x1234, 0xC0)] with a := 0x01 } (fun t =>
    (t.p, t.cycles)) =
      some (0xE6, 4) := by decide

/-- Row "BIT $10 (3F) A=00, V,N were 1". -/
theorem test_bit_clears_n_v : after { loaded 0x8000 [0x24, 0x10] [(0x0010, 0x3F)] with a := 0x00, p := 0xE4 } (fun t =>
    (t.p, t.cycles)) =
      some (0x26, 3) := by decide

/-! ### spec/95_test_vectors.md 2.6 Compares -/

/-- Row "CMP #$20 A=20". -/
theorem test_cmp_equal : after { loaded 0x8000 [0xC9, 0x20] [] with a := 0x20 } (fun t =>
    (t.p, t.cycles)) =
      some (0x27, 2) := by decide

/-- Row "CMP #$01 A=80 (V kept)". -/
theorem test_cmp_keeps_v : after { loaded 0x8000 [0xC9, 0x01] [] with a := 0x80, p := 0x64 } (fun t =>
    (t.p, t.cycles)) =
      some (0x65, 2) := by decide

/-- Row "CPY #$10 Y=0F". -/
theorem test_cpy_less : after { loaded 0x8000 [0xC0, 0x10] [] with y := 0x0F } (fun t =>
    (t.p, t.cycles)) =
      some (0xA4, 2) := by decide

/-- Row "CPX $10". -/
theorem test_cpx_zp : after { loaded 0x8000 [0xE4, 0x10] [(0x0010, 0x7F)] with x := 0x80 } (fun t =>
    (t.p, t.cycles)) =
      some (0x25, 3) := by decide

/-! ### spec/95_test_vectors.md 2.7 Branches -/

/-- Row "BCC +2 C=0". -/
theorem test_bcc_taken : after (loaded 0x8000 [0x90, 0x02] []) (fun t =>
    (t.p, t.pc, t.cycles)) =
      some (0x24, 0x8004, 3) := by decide

/-- Row "BCC +2 C=1". -/
theorem test_bcc_not_taken : after { loaded 0x8000 [0x90, 0x02] [] with p := 0x25 } (fun t =>
    (t.p, t.pc, t.cycles)) =
      some (0x25, 0x8002, 2) := by decide

/-- Row "BCS +$10 at 80FD C=1". -/
theorem test_bcs_crosses : after { loaded 0x80FD [0xB0, 0x10] [] with p := 0x25 } (fun t =>
    (t.p, t.pc, t.cycles)) =
      some (0x25, 0x810F, 4) := by decide

/-- Row "BEQ -2 Z=1". -/
theorem test_beq_backwards : after { loaded 0x8000 [0xF0, 0xFE] [] with p := 0x26 } (fun t =>
    (t.p, t.pc, t.cycles)) =
      some (0x26, 0x8000, 3) := by decide

/-- Row "BNE -6 at 8009 Z=0". -/
theorem test_bne : after (loaded 0x8009 [0xD0, 0xFA] []) (fun t =>
    (t.p, t.pc, t.cycles)) =
      some (0x24, 0x8005, 3) := by decide

/-- Row "BMI -128 N=1". -/
theorem test_bmi_least_offset : after { loaded 0x8000 [0x30, 0x80] [] with p := 0xA4 } (fun t =>
    (t.p, t.pc, t.cycles)) =
      some (0xA4, 0x7F82, 4) := by decide

/-- Row "BPL +127 N=0". -/
theorem test_bpl_greatest_offset : after (loaded 0x8000 [0x10, 0x7F] []) (fun t =>
    (t.p, t.pc, t.cycles)) =
      some (0x24, 0x8081, 3) := by decide

/-- Row "BVC +4 at FFFE". -/
theorem test_bvc_wraps : after (loaded 0xFFFE [0x50, 0x04] []) (fun t =>
    (t.p, t.pc, t.cycles)) =
      some (0x24, 0x0004, 3) := by decide

/-- Row "BVS +5 V=0". -/
theorem test_bvs_not_taken : after (loaded 0x8000 [0x70, 0x05] []) (fun t =>
    (t.p, t.pc, t.cycles)) =
      some (0x24, 0x8002, 2) := by decide

/-- Row "BVS +5 V=1". -/
theorem test_bvs_taken : after { loaded 0x8000 [0x70, 0x05] [] with p := 0x64 } (fun t =>
    (t.p, t.pc, t.cycles)) =
      some (0x64, 0x8007, 3) := by decide

/-- Row "BEQ +$7F at 807F Z=1 (next 8081, target 8100)". -/
theorem test_beq_page_of_next : after { loaded 0x807F [0xF0, 0x7F] [] with p := 0x26 } (fun t =>
    (t.p, t.pc, t.cycles)) =
      some (0x26, 0x8100, 4) := by decide

/-! ### spec/95_test_vectors.md 2.8 Jumps, call and returns -/

/-- Row "JMP $9000". -/
theorem test_jmp_abs : after (loaded 0x8000 [0x4C, 0x00, 0x90] []) (fun t =>
    (t.p, t.pc, t.cycles)) =
      some (0x24, 0x9000, 3) := by decide

/-- Row "JMP ($0120)". -/
theorem test_jmp_ind : after (loaded 0x8000 [0x6C, 0x20, 0x01] [(0x0120, 0x00), (0x0121, 0x90)]) (fun t =>
    (t.p, t.pc, t.cycles)) =
      some (0x24, 0x9000, 5) := by decide

/-- Row "JSR $9000". -/
theorem test_jsr : after (loaded 0x8000 [0x20, 0x00, 0x90] []) (fun t =>
    (t.sp, t.p, t.pc, memRead t 0x01FD, memRead t 0x01FC, t.cycles)) =
      some (0xFB, 0x24, 0x9000, 0x80, 0x02, 6) := by decide

/-- Row "JSR $9000 SP=00". -/
theorem test_jsr_stack_wraps : after { loaded 0x8000 [0x20, 0x00, 0x90] [] with sp := 0x00 } (fun t =>
    (t.sp, t.p, t.pc, memRead t 0x0100, memRead t 0x01FF, t.cycles)) =
      some (0xFE, 0x24, 0x9000, 0x80, 0x02, 6) := by decide

/-- Row "RTS". -/
theorem test_rts : after { loaded 0x8000 [0x60] [(0x01FC, 0x02), (0x01FD, 0x80)] with sp := 0xFB } (fun t =>
    (t.sp, t.p, t.pc, t.cycles)) =
      some (0xFD, 0x24, 0x8003, 6) := by decide

/-- Row "RTS pulled FFFF". -/
theorem test_rts_wraps : after { loaded 0x8000 [0x60] [(0x01FC, 0xFF), (0x01FD, 0xFF)] with sp := 0xFB } (fun t =>
    (t.sp, t.p, t.pc, t.cycles)) =
      some (0xFD, 0x24, 0x0000, 6) := by decide

/-- Row "RTI". -/
theorem test_rti : after { loaded 0x8000 [0x40] [(0x01FB, 0xE3), (0x01FC, 0x05), (0x01FD, 0x80)] with sp := 0xFA } (fun t =>
    (t.sp, t.p, t.pc, t.cycles)) =
      some (0xFD, 0xE3, 0x8005, 6) := by decide

/-- Row "RTI pulled P=FF". -/
theorem test_rti_forces_b_and_u : after { loaded 0x8000 [0x40] [(0x01FB, 0xFF), (0x01FC, 0x05), (0x01FD, 0x80)] with sp := 0xFA } (fun t =>
    (t.sp, t.p, t.pc, t.cycles)) =
      some (0xFD, 0xEF, 0x8005, 6) := by decide

/-! ### spec/95_test_vectors.md 2.9 Stack, flag and system instructions; illegal opcodes; PC wrap -/

/-- Row "PHA SP=00". -/
theorem test_pha_stack_wraps : after { loaded 0x8000 [0x48] [] with a := 0x42, sp := 0x00 } (fun t =>
    (t.sp, t.p, memRead t 0x0100, t.cycles)) =
      some (0xFF, 0x24, 0x42, 3) := by decide

/-- Row "PHP". -/
theorem test_php_pushes_break : after (loaded 0x8000 [0x08] []) (fun t =>
    (t.sp, t.p, memRead t 0x01FD, t.cycles)) =
      some (0xFC, 0x24, 0x34, 3) := by decide

/-- Row "PLA (00)". -/
theorem test_pla_zero : after { loaded 0x8000 [0x68] [(0x01FD, 0x00)] with sp := 0xFC, a := 0x11 } (fun t =>
    (t.a, t.sp, t.p, t.cycles)) =
      some (0x00, 0xFD, 0x26, 4) := by decide

/-- Row "PLA SP=FF". -/
theorem test_pla_stack_wraps : after { loaded 0x8000 [0x68] [(0x0100, 0x80)] with sp := 0xFF } (fun t =>
    (t.a, t.sp, t.p, t.cycles)) =
      some (0x80, 0x00, 0xA4, 4) := by decide

/-- Row "PLP (00)". -/
theorem test_plp_forces_unused : after { loaded 0x8000 [0x28] [(0x01FD, 0x00)] with sp := 0xFC } (fun t =>
    (t.sp, t.p, t.cycles)) =
      some (0xFD, 0x20, 4) := by decide

/-- Row "PLP (FF)". -/
theorem test_plp_forces_break : after { loaded 0x8000 [0x28] [(0x01FD, 0xFF)] with sp := 0xFC } (fun t =>
    (t.sp, t.p, t.cycles)) =
      some (0xFD, 0xEF, 4) := by decide

/-- Row "CLC". -/
theorem test_clc : after { loaded 0x8000 [0x18] [] with p := 0x25 } (fun t =>
    (t.p, t.cycles)) =
      some (0x24, 2) := by decide

/-- Row "SEC". -/
theorem test_sec : after (loaded 0x8000 [0x38] []) (fun t =>
    (t.p, t.cycles)) =
      some (0x25, 2) := by decide

/-- Row "CLI". -/
theorem test_cli : after (loaded 0x8000 [0x58] []) (fun t =>
    (t.p, t.cycles)) =
      some (0x20, 2) := by decide

/-- Row "SEI". -/
theorem test_sei : after { loaded 0x8000 [0x78] [] with p := 0x20 } (fun t =>
    (t.p, t.cycles)) =
      some (0x24, 2) := by decide

/-- Row "CLD". -/
theorem test_cld : after { loaded 0x8000 [0xD8] [] with p := 0x2C } (fun t =>
    (t.p, t.cycles)) =
      some (0x24, 2) := by decide

/-- Row "SED". -/
theorem test_sed : after (loaded 0x8000 [0xF8] []) (fun t =>
    (t.p, t.cycles)) =
      some (0x2C, 2) := by decide

/-- Row "CLV". -/
theorem test_clv : after { loaded 0x8000 [0xB8] [] with p := 0x64 } (fun t =>
    (t.p, t.cycles)) =
      some (0x24, 2) := by decide

/-- Row "NOP". -/
theorem test_nop : after (loaded 0x8000 [0xEA] []) (fun t =>
    (t.p, t.pc, t.cycles)) =
      some (0x24, 0x8001, 2) := by decide

/-- Row "BRK". -/
theorem test_brk : after (loaded 0x8000 [0x00] []) (fun t =>
    (t.p, t.pc, t.cycles)) =
      some (0x24, 0x8001, 7) := by decide

/-- Row "illegal 0x80 (no operand fetch)". -/
theorem test_illegal : after (loaded 0x8000 [0x80, 0x12] []) (fun t =>
    (t.p, t.pc, t.cycles)) =
      some (0x24, 0x8000, 0) := by decide

/-- Row "LDA $1234 at FFFE". -/
theorem test_fetch_wraps : after (loaded 0xFFFE [0xAD, 0x34] [(0x0000, 0x12), (0x1234, 0x5E)]) (fun t =>
    (t.a, t.p, t.pc, t.cycles)) =
      some (0x5E, 0x24, 0x0001, 4) := by decide

/-! ### spec/95_test_vectors.md 2.10 Bus access lists -/

theorem test_accesses_lda_imm : stepAccesses (loaded 0x8000 [0xA9, 0x80] []) =
    [.read 0x8000 0xA9, .read 0x8001 0x80] := by decide
theorem test_accesses_lda_izy :
    stepAccesses { loaded 0x8000 [0xB1, 0x86] [(0x0086, 0x28), (0x0087, 0x40), (0x4108, 0x3D)] with y := 0xE0 } =
      [.read 0x8000 0xB1, .read 0x8001 0x86, .read 0x0086 0x28, .read 0x0087 0x40, .read 0x4108 0x3D] := by decide
theorem test_accesses_inc_abx : stepAccesses { loaded 0x8000 [0xFE, 0xFF, 0x12] [(0x1300, 0x09)] with x := 0x01 } =
    [.read 0x8000 0xFE, .read 0x8001 0xFF, .read 0x8002 0x12, .read 0x1300 0x09, .write 0x1300 0x0A] := by decide
theorem test_accesses_asl_acc : stepAccesses { loaded 0x8000 [0x0A] [] with a := 0x81 } = [.read 0x8000 0x0A] := by decide
theorem test_accesses_jsr : stepAccesses (loaded 0x8000 [0x20, 0x00, 0x90] []) =
    [.read 0x8000 0x20, .read 0x8001 0x00, .read 0x8002 0x90, .write 0x01FD 0x80, .write 0x01FC 0x02] := by decide
theorem test_accesses_rti :
    stepAccesses { loaded 0x8000 [0x40] [(0x01FB, 0xE3), (0x01FC, 0x05), (0x01FD, 0x80)] with sp := 0xFA } =
      [.read 0x8000 0x40, .read 0x01FB 0xE3, .read 0x01FC 0x05, .read 0x01FD 0x80] := by decide
theorem test_accesses_illegal : stepAccesses (loaded 0x8000 [0xFF] []) = [.read 0x8000 0xFF] := by decide
theorem test_accesses_irq :
    entryAccesses Config.irqVector { loaded 0x8000 [] [(0xFFFE, 0x00), (0xFFFF, 0x90)] with p := 0x20 } =
      [.write 0x01FD 0x80, .write 0x01FC 0x00, .write 0x01FB 0x20, .read 0xFFFE 0x00, .read 0xFFFF 0x90] := by decide

/-! ### spec/95_test_vectors.md 2.11 and 2.12: status images and the adder -/

theorem test_status_images : pushByteSoftware 0xE7 = 0xF7 ∧ pushByteInterrupt 0x24 = 0x24 ∧ fromByte 0x30 = 0x20 ∧
    fromByte 0xCF = 0xEF := by decide
theorem test_adder_two_negatives : addCore 0xD0 0x90 false = ⟨0x60, true, true⟩ := by decide
theorem test_adder_carry_in_overflows : addCore 0x7F 0x00 true = ⟨0x80, false, true⟩ := by decide
theorem test_adder_all_ones : addCore 0xFF 0xFF true = ⟨0xFF, true, false⟩ := by decide

/-! ### spec/95_test_vectors.md 2.13 and P8: run, interrupts, halting -/

/-- P1: LDX #2, LDA #1, CLC, ADC #1, STA $10,X, BRK. -/
def p1 : State := loaded 0x8000 [0xA2, 0x02, 0xA9, 0x01, 0x18, 0x69, 0x01, 0x95, 0x10, 0x00] []

theorem test_run_zero : ran 0 p1 = some (0, .budgetExhausted, 0x8000) := by decide
theorem test_run_overshoots : ran 5 p1 = some (6, .budgetExhausted, 0x8005) := by decide
theorem test_irq_taken : reported (triggerIrq { loaded 0x8000 [] [(0xFFFE, 0x00), (0xFFFF, 0x90)] with p := 0x20 })
    (fun t => (t.pc, t.sp, t.p, memRead t 0x01FB, t.runState)) = some ((0x9000, 0xFA, 0x24, 0x20, .interrupted), 7) := by decide
theorem test_irq_masked : reported (triggerIrq p1) (fun t => (t.pc, t.sp, t.runState)) =
    some ((0x8000, 0xFD, .reset), 0) := by decide
theorem test_nmi_resumes_halted_core :
    reported (triggerNmi { loaded 0x800A [] [(0xFFFB, 0x90)] with
        runState := .halted, haltReason := some .brk, cycles := 19 })
      (fun t => (t.pc, memRead t 0x01FC, t.cycles, t.haltReason)) = some ((0x9000, 0x0A, 26, none), 7) := by decide
theorem test_step_on_halted_core : stepReport { p1 with runState := .halted, haltReason := some .brk } =
    .next ({ p1 with runState := .halted, haltReason := some .brk }, 0) := rfl
theorem test_step_before_reset : step (newCore []) = .refused .beforeReset := rfl
theorem test_load_wraps : memRead (loadBytes 0xFFFF [0x11, 0x22] State.reset) 0x0000 = 0x22 := by decide

/-! ### spec/30_encoding.md R80: the examples of assembler text -/

theorem test_text_modes : String.ofList (assemblyText .clc 0x8000) = "CLC" ∧
    String.ofList (assemblyText .aslAcc 0x8000) = "ASL A" ∧ String.ofList (assemblyText (.ldaImm 0x10) 0x8000) = "LDA #$10" ∧
    String.ofList (assemblyText (.ldxZpy 0x10) 0x8000) = "LDX $10,Y" ∧
    String.ofList (assemblyText (.ldaAbx 0x1234) 0x8000) = "LDA $1234,X" := by decide
theorem test_text_indirect : String.ofList (assemblyText (.jmpInd 0x1234) 0x8000) = "JMP ($1234)" ∧
    String.ofList (assemblyText (.ldaIzx 0x10) 0x8000) = "LDA ($10,X)" ∧
    String.ofList (assemblyText (.ldaIzy 0x10) 0x8000) = "LDA ($10),Y" ∧
    String.ofList (assemblyText (.bne 0xFA) 0x8009) = "BNE $8005" := by decide

/-! ### Witnesses: for the hypotheses of each statement, a state and operands that meet them together -/

theorem witness_fetching : Fetching p1 ∧
    decode [memRead p1 p1.pc, memRead p1 (p1.pc + 1#16), memRead p1 (p1.pc + 2#16)] = .ok (.ldxImm 0x02, [0xA9]) ∧
    (Instr.ldxImm 0x02).wf = true := ⟨by decide, rfl, rfl⟩
theorem witness_fetching_interrupted : Fetching (interruptEntry 0xFFFA p1) := by decide
theorem witness_encode : (Instr.jmpInd 0xFFFF).wf = true ∧ (Instr.illegal 0x02).wf = true := by decide
theorem witness_decode : decode [0x6C, 0xFF, 0x02] = .ok (.jmpInd 0x02FF, []) := rfl
theorem witness_descriptor : descriptor 0x02 = none ∧ descriptor 0x6C = some ⟨.jmp, .ind, 5, false⟩ := by decide
theorem witness_loads : (Instr.ldaIzy 0xFF).mnemonic = .lda ∧ (Instr.ldxZpy 0xFF).mnemonic = .ldx ∧
    (Instr.ldyAbx 0xFFFF).mnemonic = .ldy := by decide
theorem witness_stores : (Instr.staAbx 0xFFFF).mnemonic = .sta ∧ (Instr.stxZpy 0xFF).mnemonic = .stx ∧
    (Instr.styAbs 0x0000).mnemonic = .sty := by decide
theorem witness_arithmetic : (Instr.adcIzx 0xFF).mnemonic = .adc ∧ (Instr.sbcImm 0x00).mnemonic = .sbc := by decide
theorem witness_decimal_adc : exec (.adcImm 0x01) { p1 with a := 0x09 } =
    .next { p1 with a := 0x0A, pc := 0x8002, cycles := 2, runState := .running } := rfl
theorem witness_decimal_other : Instr.mnemonic .plp ≠ .php ∧ Instr.mnemonic .nop ≠ .php := by decide
theorem witness_inc_dec : (Instr.incAbx 0xFFFF).mnemonic = .inc ∧ (Instr.decZp 0x00).mnemonic = .dec := by decide
theorem witness_shifts : (Instr.aslAcc).mnemonic = .asl ∧ (Instr.lsrAbx 0xFFFF).mnemonic = .lsr ∧
    (Instr.rolZp 0x00).mnemonic = .rol ∧ (Instr.rorAcc).mnemonic = .ror := by decide
theorem witness_logical : (Instr.andImm 0x00).mnemonic = .and ∧ (Instr.oraAby 0xFFFF).mnemonic = .ora ∧
    (Instr.eorIzy 0xFF).mnemonic = .eor ∧ (Instr.bitAbs 0xFFFF).mnemonic = .bit := by decide
theorem witness_compares : (Instr.cmpImm 0xFF).mnemonic = .cmp ∧ (Instr.cpxAbs 0xFFFF).mnemonic = .cpx ∧
    (Instr.cpyZp 0x00).mnemonic = .cpy := by decide
theorem witness_compare_flags : Flag.overflow ≠ .carry ∧ Flag.overflow ≠ .zero ∧ Flag.overflow ≠ .negative := by decide

/-- A call with SP = 0x00: the return address is stored across the wrap of the stack page. -/
def called : State :=
  ((push 0x02 (push 0x80 (({ p1 with sp := 0x00 } : State).afterFetch 3))).setPc 0x9000).addCycles 6

theorem witness_call_return : exec (.jsr 0x9000) { p1 with sp := 0x00 } = .next called ∧ called.sp = 0xFE ∧
    memRead called (stackAddr 0x00) = 0x80 ∧ memRead called (stackAddr (0x00 - 1#8)) = 0x02 := ⟨rfl, by decide⟩
theorem witness_status_form : StatusForm p1 := by decide
theorem witness_stack_wraps : ({ p1 with sp := 0x00 } : State).sp = 0x00#8 ∧ ({ p1 with sp := 0xFF } : State).sp = 0xFF#8 :=
  by decide
theorem witness_pull_flags : Flag.carry ≠ .unused ∧ Flag.carry ≠ .brk := by decide
theorem witness_illegal : Fetching (loaded 0x8000 [0x02] []) ∧
    isIllegalOpcode (memRead (loaded 0x8000 [0x02] []) (loaded 0x8000 [0x02] []).pc) = true := by decide
theorem witness_good_state : GoodState p1 ∧ ∃ t, step p1 = .next t := ⟨⟨by decide, by decide, by decide⟩, _, rfl⟩
theorem witness_good_halted : GoodState { p1 with runState := .halted, haltReason := some .brk } :=
  ⟨by decide, by decide, by decide⟩
theorem witness_calls : GoodState p1 ∧
    ∃ t, calls [.load 0x9000 [0x40], .triggerIrq, .triggerNmi, .step, .run 3, .reset] p1 = .next t :=
  ⟨⟨by decide, by decide, by decide⟩, _, rfl⟩
theorem witness_construction : Memory.wf [(0x8000, 0xEA), (0xFFFD, 0x80)] = true := by decide
theorem witness_reset_memory : ({ p1 with a := 0x55, cycles := 9 } : State).mem = p1.mem := rfl
theorem witness_started : Started p1 ∧ p1.flag .irqDisable = true ∧ Started { p1 with p := 0x20 } ∧
    ({ p1 with p := 0x20 } : State).flag .irqDisable = false := by decide
theorem witness_run_states : (newCore []).runState = .unreset ∧
    (Fetching p1 ∧ isIllegalOpcode (memRead p1 p1.pc) = false ∧ memRead p1 p1.pc ≠ 0x00#8) ∧
    (Fetching State.reset ∧ memRead State.reset State.reset.pc = 0x00#8) ∧
    ({ p1 with runState := .halted, haltReason := some .brk } : State).runState = .halted :=
  ⟨rfl, by decide, by decide, rfl⟩
theorem witness_access_list : ∃ t, step (loaded 0x8000 [0x8D, 0x00, 0x02] []) = .next t := ⟨_, rfl⟩

/-- Another memory: one byte outside the access list of P1's first step differs. -/
def otherMemory : Memory := p1.mem.set 0x9000 0x77

theorem witness_other_memory : otherMemory ≠ p1.mem ∧
    (stepAccesses p1 = [.read 0x8000 0xA2, .read 0x8001 0x02]) ∧
    otherMemory.get 0x8000 = 0xA2 ∧ otherMemory.get 0x8001 = 0x02 := by decide
theorem witness_flag_changes : ∃ t, exec .sec p1 = .next t ∧ t.flag .carry ≠ p1.flag .carry := ⟨_, rfl, by decide⟩
theorem witness_unused_changes : ∃ t, exec .plp { p1 with p := 0x00 } = .next t ∧ t.flag .unused ≠ false :=
  ⟨_, rfl, by decide⟩
theorem witness_register_changes :
    (∃ t, exec (.ldaImm 0x01) p1 = .next t ∧ t.a ≠ p1.a) ∧ (∃ t, exec .tsx p1 = .next t ∧ t.x ≠ p1.x) ∧
    (∃ t, exec .dey p1 = .next t ∧ t.y ≠ p1.y) ∧ (∃ t, exec .php p1 = .next t ∧ t.sp ≠ p1.sp) :=
  ⟨⟨_, rfl, by decide⟩, ⟨_, rfl, by decide⟩, ⟨_, rfl, by decide⟩, ⟨_, rfl, by decide⟩⟩
theorem witness_pc_advances : Instr.mnemonic .brk ∉ writersPc ∧
    ∃ t, exec (.ldaAbs 0x1234) { p1 with pc := 0xFFFE } = .next t ∧ t.pc = 0x0001 := ⟨by decide, _, rfl, by decide⟩
theorem witness_pushes : ∃ t, exec (.jsr 0x9000) { p1 with sp := 0x00 } = .next t ∧
    storedAddresses (.jsr 0x9000) { p1 with sp := 0x00 } = [0x0100, 0x01FF] := ⟨_, rfl, by decide⟩
theorem witness_stored_pha : storedAddresses .pha p1 = [0x01FD] ∧ storedAddresses .php p1 = [0x01FD] := by decide
theorem witness_immediate_address_wraps : (resolve (.imm 0x10) (({ p1 with pc := 0xFFFF } : State).afterFetch 2)).ea = 0x0000 ∧
    (resolve (.imm 0x10) { p1 with pc := 0x0000 }).ea = 0xFFFF := by decide
theorem witness_page_cross_boundary :
    (resolve (.abx 0x12FF) { p1 with x := 0x00 }).crossed = false ∧ (resolve (.abx 0x12FF) { p1 with x := 0x01 }).crossed = true ∧
    (resolve (.aby 0xFF01) { p1 with y := 0xFE }).crossed = false ∧ (resolve (.aby 0xFF01) { p1 with y := 0xFF }).crossed = true ∧
    (resolve (.izy 0x50) { p1 with y := 0xFF }).crossed = false := by decide
theorem witness_page_cross_none : Operand.mode (.zpx 0xFF) ∉ [.abx, .aby, .izy] := by decide
theorem witness_page_cross_opcodes : pageCrossExtra (.cmpIzy 0x00) = true ∧ pageCrossExtra (.staAbx 0x0000) = false ∧
    pageCrossExtra (.incAbx 0x0000) = false ∧ pageCrossExtra (.ldaAbs 0x0000) = false := by decide
theorem witness_load_fits : (List.replicate 65536 (0x00 : Byte)).length ≤ 65536 ∧
    65536 < (List.replicate 65537 (0x00 : Byte)).length := by simp only [List.length_replicate]; decide
theorem witness_load_outside : ∀ k < ([0x11, 0x22] : List Byte).length, (0x0001 : Addr) ≠ 0xFFFF + BitVec.ofNat 16 k := by decide
theorem witness_status_byte : getFlag .unused 0x24 = true ∧ getFlag .brk 0x24 = false := by decide
/-- Three programs in which an instruction stores to a byte of the next one: STX to the operand byte of LDA #, INC of
the opcode byte, and PHA onto the byte after itself. -/
def storesOperand : State := { loaded 0x8000 [0x8E, 0x04, 0x80, 0xA9, 0x00] [] with x := 0x77 }
def modifiesOpcode : State := loaded 0x8000 [0xEE, 0x03, 0x80, 0xE7] []
def pushesOpcode : State := { loaded 0x01FC [0x48] [] with a := 0xE8 }

theorem witness_store_operand_byte : ∃ t, exec (.stxAbs 0x8004) storesOperand = .next t ∧ t.runState ≠ .halted ∧
    .write 0x8004 0x77 ∈ operationAccesses (.stxAbs 0x8004) (fetched (.stxAbs 0x8004) storesOperand) ∧
    fetchInstr t = .ldaImm 0x77 := ⟨_, rfl, by decide, by decide, rfl⟩
theorem witness_modify_opcode_byte : ∃ t, exec (.incAbs 0x8003) modifiesOpcode = .next t ∧ t.runState ≠ .halted ∧
    .write 0x8003 0xE8 ∈ operationAccesses (.incAbs 0x8003) (fetched (.incAbs 0x8003) modifiesOpcode) ∧
    fetchInstr t = .inx := ⟨_, rfl, by decide, by decide, rfl⟩
theorem witness_push_opcode_byte : ∃ t, exec .pha pushesOpcode = .next t ∧ t.runState ≠ .halted ∧
    .write 0x01FD 0xE8 ∈ operationAccesses .pha (fetched .pha pushesOpcode) ∧ fetchInstr t = .inx :=
  ⟨_, rfl, by decide, by decide, rfl⟩

theorem witness_same_operand :
    (Instr.cpxImm 0x80).mnemonic = (Instr.cpxAbs 0x1234).mnemonic ∧ (Instr.cpxImm 0x80).operand = .imm 0x80 ∧
    (Instr.cpxAbs 0x1234).operand = .abs 0x1234 ∧ memRead (loaded 0x8000 [] [(0x1234, 0x80)]) 0x1234 = 0x80 := by decide

end Sys2Proof.Tests
end

section
/-! PROOFS. The stack operations (spec/20_memory.md R50 to R52): the slot of SP, what a push stores and leaves alone, and
the pull that undoes it. -/

namespace Sys2Proof.Machine

open Sys2Proof

/-- The slot of SP is `0x0100 + SP`: page and offset joined agree with the sum of R50. -/
theorem stackAddr_eq_add_zext16 (sp : Byte) : stackAddr sp = 0x0100#16 + zext16 sp := by
  apply BitVec.eq_of_toNat_eq
  have hsp := sp.isLt
  simp only [stackAddr, word_toNat, Config.stackPage, zext16, BitVec.toNat_add, BitVec.toNat_setWidth, BitVec.toNat_ofNat]
  omega

@[simp] theorem memRead_push_slot (v : Byte) (s : State) : memRead (push v s) (stackAddr s.sp) = v := by
  simp [memRead_push]

theorem push_sameMemoryBut_slot (v : Byte) (s : State) : SameMemoryBut [stackAddr s.sp] s (push v s) := by
  intro addr haddr
  rw [memRead_push, if_neg (List.ne_of_not_mem_cons haddr)]

theorem pull_push_sp (v : Byte) (s : State) : (pull (push v s)).2.sp = s.sp := by
  rw [pull_snd_sp, push_sp, BitVec.sub_add_cancel]

/-- The increment of the pull leads back to the slot the push wrote (R52). -/
theorem pull_push_byte (v : Byte) (s : State) : (pull (push v s)).1 = v := by
  rw [pull_fst, push_sp, BitVec.sub_add_cancel, memRead_push_slot]

/-- Settles O32: the slot, the frame and the round trip by the rules of push and pull; the two wraps are their values at
the ends of page 1. -/
theorem pullAfterPushReturnsTheByte : Obligations.PullAfterPushReturnsTheByte := by
  intro s v
  simp only [← stackAddr_eq_add_zext16]
  refine ⟨push_sp s v, memRead_push_slot v s, push_sameMemoryBut_slot v s, pull_fst s, rfl, pull_push_byte v s,
    pull_push_sp v s, fun hsp => ⟨?_, ?_⟩, fun hsp => ⟨?_, ?_⟩⟩
  · rw [push_sp, hsp]; decide
  · have hslot : stackAddr s.sp = 0x0100#16 := by rw [hsp]; decide
    rw [← hslot, memRead_push_slot]
  · rw [pull_snd_sp, hsp]; decide
  · have hslot : stackAddr (s.sp + 1#8) = 0x0100#16 := by rw [hsp]; decide
    rw [pull_fst, hslot]

end Sys2Proof.Machine
end

section
/-! PROOFS. Completion of the straight-line instructions (R14, R232, R260): the cycles the resolver's page cross adds, and
`Completes` for the reading, the storing and the implied shape, each for any effect that leaves PC, the run state, the halt
reason and the cycles alone. -/

namespace Sys2Proof.Machine

open Sys2Proof

/-- The mnemonics whose every form is `readInstr` (R105). -/
def readsOperand : Mnemonic → Bool
  | .lda | .ldx | .ldy | .adc | .sbc | .and | .ora | .eor | .bit | .cmp | .cpx | .cpy => true
  | _ => false

/-- What every effect inside a shape leaves alone, and the shape itself accounts for. -/
structure KeepsControl (s t : State) : Prop where
  pc : t.pc = s.pc
  runState : t.runState = s.runState
  haltReason : t.haltReason = s.haltReason
  cycles : t.cycles = s.cycles

variable {i : Instr} {s : State}

/-! ### Cycles (R104, R260) -/

theorem mode_of_crossed {o : Operand} (h : (resolve o s).crossed = true) : o.mode ∈ [Mode.abx, .aby, .izy] := by
  cases o with
  | abx | aby | izy => simp [Operand.mode]
  | _ => cases h

/-- The `+` cells of R75: among the reading instructions, the modes that can report a page cross. -/
theorem pageCrossExtra_of_readsOperand (h : readsOperand i.mnemonic = true) :
    pageCrossExtra i = decide (i.operand.mode ∈ [Mode.abx, .aby, .izy]) := by
  cases i <;> first | (cases h; done) | rfl

/-- No other official opcode has a `+` cell (R75). -/
theorem pageCrossExtra_of_not_readsOperand (h : readsOperand i.mnemonic = false) (hi : i.mnemonic ≠ .illegal) :
    pageCrossExtra i = false := by
  cases i <;> first | (cases h; done) | exact absurd rfl hi | rfl

theorem branchExtra_eq_zero (h : branchCondition i.mnemonic = none) : branchExtra i s = 0 := by
  simp [branchExtra, h]

theorem branchCondition_of_readsOperand {m : Mnemonic} (h : readsOperand m = true) : branchCondition m = none := by
  cases m <;> first | (cases h; done) | rfl

/-- A reading instruction pays a cycle exactly when its address crosses a page. -/
theorem instrCycles_of_readsOperand (h : readsOperand i.mnemonic = true) :
    instrCycles i s = baseCycles i + if (resolve i.operand (fetched i s)).crossed then 1 else 0 := by
  have hcross : (resolve i.operand (fetched i s)).crossed = true → pageCrossExtra i = true := fun hc => by
    simpa [pageCrossExtra_of_readsOperand h] using mode_of_crossed hc
  rw [instrCycles, branchExtra_eq_zero (branchCondition_of_readsOperand h), pageCrossCycles, Nat.add_zero,
    if_congr (and_iff_right_of_imp hcross) rfl rfl]

theorem instrCycles_eq_baseCycles (hr : readsOperand i.mnemonic = false) (hi : i.mnemonic ≠ .illegal)
    (hb : branchCondition i.mnemonic = none) : instrCycles i s = baseCycles i := by
  simp [instrCycles, branchExtra_eq_zero hb, pageCrossCycles, pageCrossExtra_of_not_readsOperand hr hi]

theorem instrCycles_of_store (hm : i.mnemonic ∈ [Mnemonic.sta, .stx, .sty]) : instrCycles i s = baseCycles i := by
  have hstore : ∀ m ∈ [Mnemonic.sta, .stx, .sty], readsOperand m = false ∧ m ≠ .illegal ∧ branchCondition m = none := by
    decide
  obtain ⟨hr, hi, hb⟩ := hstore _ hm
  exact instrCycles_eq_baseCycles hr hi hb

theorem instrCycles_of_implied (ho : i.operand = .imp) (hi : i.mnemonic ≠ .illegal) : instrCycles i s = baseCycles i := by
  refine instrCycles_eq_baseCycles ?_ hi ?_
  · cases i <;> first | (cases ho; done) | rfl
  · cases i <;> first | (cases ho; done) | rfl

/-! ### Completion of each shape -/

theorem completes_of_exec {u : State} {n : Nat} (he : exec i s = .next (u.addCycles n)) (hk : KeepsControl (fetched i s) u)
    (hn : instrCycles i s = n) : Completes i s (u.addCycles n) where
  answers := he
  pc := hk.pc
  running := hk.runState
  reason := hk.haltReason
  cycles := by rw [State.addCycles_cycles, hk.cycles, hn, State.afterFetch_cycles]

theorem completes_readInstr {f : Byte → State → State} (he : exec i s = readInstr i.operand (baseCycles i) f s)
    (hr : readsOperand i.mnemonic = true) (hk : KeepsControl (fetched i s) (f (operandOf i s) (fetched i s))) :
    Completes i s ((f (operandOf i s) (fetched i s)).addCycles
      (baseCycles i + if (resolve i.operand (fetched i s)).crossed then 1 else 0)) :=
  completes_of_exec he hk (instrCycles_of_readsOperand hr)

theorem completes_storeInstr {v : Byte} (he : exec i s = storeInstr i.operand (baseCycles i) v s)
    (hm : i.mnemonic ∈ [Mnemonic.sta, .stx, .sty]) :
    Completes i s ((memWrite (fetched i s) (addressOf i s) v).addCycles (baseCycles i)) :=
  completes_of_exec he ⟨rfl, rfl, rfl, rfl⟩ (instrCycles_of_store hm)

theorem completes_impliedInstr {f : State → State} (he : exec i s = impliedInstr (baseCycles i) f s)
    (ho : i.operand = .imp) (hi : i.mnemonic ≠ .illegal) (hk : KeepsControl (fetched i s) (f (fetched i s))) :
    Completes i s ((f (fetched i s)).addCycles (baseCycles i)) :=
  completes_of_exec (by rw [he, impliedInstr, fetched, ho]) hk (instrCycles_of_implied ho hi)

end Sys2Proof.Machine
end

section
/-! PROOFS. Loads, stores and register transfers (spec/41_load_store_transfer.md R110 to R121). Each transfer but
TXS is by definition the load of another register's byte (`aToX s` is `loadX s.a s`), so its effect is that of the load. -/

namespace Sys2Proof.Machine

open Sys2Proof

/-! ### The effects -/

theorem zeroNegativeFrom_setZN (v : Byte) {s u : State} (hp : u.p = s.p) : ZeroNegativeFrom v s (u.setZN v) := by
  refine ⟨?zero, ?negative, fun f hf => ?kept⟩
  case zero => rw [State.flag_setZN, if_pos rfl]; rfl
  case negative => rw [State.flag_setZN, if_neg (by decide), if_pos rfl]
  case kept =>
    obtain ⟨hz, hn⟩ : f ≠ .zero ∧ f ≠ .negative := by simpa using hf
    rw [State.flag_setZN, if_neg hz, if_neg hn, State.flag, hp, State.flag]

theorem memWrite_sameMemoryBut (s : State) (addr : Addr) (v : Byte) : SameMemoryBut [addr] s (memWrite s addr v) :=
  fun _ h => memRead_memWrite_ne s v (List.ne_of_not_mem_cons h)

section
variable {m : Byte} {s t : State} {len n : Nat}

theorem loadA_effect (ht : t = (loadA m (s.afterFetch len)).addCycles n) :
    t.a = m ∧ ZeroNegativeFrom m s t ∧ t.x = s.x ∧ t.y = s.y ∧ t.sp = s.sp ∧ SameMemory s t := by
  subst ht
  exact ⟨rfl, zeroNegativeFrom_setZN m rfl, rfl, rfl, rfl, fun _ => rfl⟩

theorem loadX_effect (ht : t = (loadX m (s.afterFetch len)).addCycles n) :
    t.x = m ∧ ZeroNegativeFrom m s t ∧ t.a = s.a ∧ t.y = s.y ∧ t.sp = s.sp ∧ SameMemory s t := by
  subst ht
  exact ⟨rfl, zeroNegativeFrom_setZN m rfl, rfl, rfl, rfl, fun _ => rfl⟩

theorem loadY_effect (ht : t = (loadY m (s.afterFetch len)).addCycles n) :
    t.y = m ∧ ZeroNegativeFrom m s t ∧ t.a = s.a ∧ t.x = s.x ∧ t.sp = s.sp ∧ SameMemory s t := by
  subst ht
  exact ⟨rfl, zeroNegativeFrom_setZN m rfl, rfl, rfl, rfl, fun _ => rfl⟩

end

theorem loadA_keepsControl (m : Byte) (s : State) : KeepsControl s (loadA m s) := ⟨rfl, rfl, rfl, rfl⟩

theorem loadX_keepsControl (m : Byte) (s : State) : KeepsControl s (loadX m s) := ⟨rfl, rfl, rfl, rfl⟩

theorem loadY_keepsControl (m : Byte) (s : State) : KeepsControl s (loadY m s) := ⟨rfl, rfl, rfl, rfl⟩

theorem xToSp_keepsControl (s : State) : KeepsControl s (xToSp s) := ⟨rfl, rfl, rfl, rfl⟩

/-! ### Which register a store writes -/

/-- Instruction `i` is a store, and `v` is the byte of its register in `s` (R113 to R115). -/
def StoresByte (i : Instr) (s : State) (v : Byte) : Prop :=
  i.mnemonic = .sta ∧ v = s.a ∨ i.mnemonic = .stx ∧ v = s.x ∨ i.mnemonic = .sty ∧ v = s.y

section
variable {i : Instr} {s : State} {v : Byte} (h : StoresByte i s v)
include h

theorem StoresByte.mnemonic : i.mnemonic ∈ [Mnemonic.sta, .stx, .sty] := by
  rcases h with ⟨hm, -⟩ | ⟨hm, -⟩ | ⟨hm, -⟩ <;> simp [hm]

theorem StoresByte.exec : Machine.exec i s = storeInstr i.operand (baseCycles i) v s := by
  rcases h with ⟨hm, rfl⟩ | ⟨hm, rfl⟩ | ⟨hm, rfl⟩
  · exact exec_sta hm
  · exact exec_stx hm
  · exact exec_sty hm

/-- The write is the only access: the old content of the address is not read. -/
theorem StoresByte.accesses : operationAccesses i (fetched i s) = [.write (addressOf i s) v] := by
  rcases h with ⟨hm, rfl⟩ | ⟨hm, rfl⟩ | ⟨hm, rfl⟩ <;> simp [operationAccesses, hm]

end

/-! ### The statements -/

/-- Settles O7: each load is `readInstr` of its register's load, in every form. -/
theorem loadsCopyTheOperand : Obligations.LoadsCopyTheOperand := by
  refine ⟨rfl, rfl, rfl, fun i s => ⟨fun h => ?lda, fun h => ?ldx, fun h => ?ldy⟩⟩
  case lda => exact ⟨_, completes_readInstr (exec_lda h) (by rw [h]; rfl) (loadA_keepsControl _ _), loadA_effect rfl⟩
  case ldx => exact ⟨_, completes_readInstr (exec_ldx h) (by rw [h]; rfl) (loadX_keepsControl _ _), loadX_effect rfl⟩
  case ldy => exact ⟨_, completes_readInstr (exec_ldy h) (by rw [h]; rfl) (loadY_keepsControl _ _), loadY_effect rfl⟩

/-- Settles O8: each store is `storeInstr` of its register's byte, one write at the resolved address. -/
theorem storesWriteOneByte : Obligations.StoresWriteOneByte := by
  refine ⟨rfl, rfl, rfl, fun i s v (h : StoresByte i s v) => ⟨h.accesses, _, completes_storeInstr h.exec h.mnemonic, ?_⟩⟩
  have hsame : memRead (memWrite (fetched i s) (addressOf i s) v) (addressOf i s) = v := memRead_memWrite_same _ _ _
  exact ⟨hsame, memWrite_sameMemoryBut _ _ _, rfl, rfl, rfl, rfl, rfl⟩

/-- Settles O9: the five transfers with flags are loads of a register's byte; TXS writes SP alone. -/
theorem transfersCopyRegisters : Obligations.TransfersCopyRegisters := by
  refine ⟨rfl, rfl, rfl, rfl, rfl, rfl, fun s => ⟨?tax, ?tay, ?txa, ?tya, ?tsx, ?txs⟩⟩
  case tax => exact ⟨_, completes_impliedInstr (exec_tax rfl) rfl (by decide) (loadX_keepsControl _ _), loadX_effect rfl⟩
  case tay => exact ⟨_, completes_impliedInstr (exec_tay rfl) rfl (by decide) (loadY_keepsControl _ _), loadY_effect rfl⟩
  case txa => exact ⟨_, completes_impliedInstr (exec_txa rfl) rfl (by decide) (loadA_keepsControl _ _), loadA_effect rfl⟩
  case tya => exact ⟨_, completes_impliedInstr (exec_tya rfl) rfl (by decide) (loadA_keepsControl _ _), loadA_effect rfl⟩
  case tsx => exact ⟨_, completes_impliedInstr (exec_tsx rfl) rfl (by decide) (loadX_keepsControl _ _), loadX_effect rfl⟩
  case txs =>
    exact ⟨_, completes_impliedInstr (exec_txs rfl) rfl (by decide) (xToSp_keepsControl _), rfl, rfl, rfl, rfl, rfl, fun _ => rfl⟩

end Sys2Proof.Machine
end

section
/-! PROOFS. Add and subtract with carry (spec/42_arithmetic.md R130 to R134): the adder read as arithmetic on unsigned and on
signed values, the same with the complemented operand (SBC is ADC of `~~~m`), and what both instructions do to the state. -/

namespace Sys2Proof.Machine

open Sys2Proof

/-! ### The adder (R130) -/

theorem getLsbD_seven_eq_decide (b : Byte) : b.getLsbD 7 = decide (128 ≤ b.toNat) :=
  (BitVec.msb_eq_getLsbD_last b).symm.trans (BitVec.msb_eq_decide b)

theorem toInt_eq_of_byte (b : Byte) : b.toInt = if b.toNat < 128 then (b.toNat : Int) else b.toNat - 256 := by
  rw [BitVec.toInt_eq_toNat_cond]
  split <;> split <;> omega

section
variable (a m : Byte) (c : Bool)

theorem addCore_r_toNat : (addCore a m c).r.toNat = (a.toNat + m.toNat + c.toNat) % 256 := BitVec.toNat_ofNat _ _

theorem addCore_cout_iff : (addCore a m c).cout = true ↔ 255 < a.toNat + m.toNat + c.toNat := decide_eq_true_iff

theorem addCore_vout : (addCore a m c).vout = ((a ^^^ (addCore a m c).r) &&& (m ^^^ (addCore a m c).r)).getLsbD 7 := rfl

/-- The second formula of R130 is the same function of the three bits 7 as the first. -/
theorem addCore_vout_eq_not_xor :
    (addCore a m c).vout = (~~~(a ^^^ m) &&& (a ^^^ (addCore a m c).r)).getLsbD 7 := by
  rw [addCore_vout]
  simp only [BitVec.getLsbD_and, BitVec.getLsbD_xor, BitVec.getLsbD_not]
  cases a.getLsbD 7 <;> cases m.getLsbD 7 <;> cases (addCore a m c).r.getLsbD 7 <;> rfl

theorem addCore_vout_iff_bits :
    (addCore a m c).vout = true ↔ a.getLsbD 7 = m.getLsbD 7 ∧ (addCore a m c).r.getLsbD 7 ≠ a.getLsbD 7 := by
  rw [addCore_vout]
  simp only [BitVec.getLsbD_and, BitVec.getLsbD_xor]
  cases a.getLsbD 7 <;> cases m.getLsbD 7 <;> cases (addCore a m c).r.getLsbD 7 <;> decide

/-- Bit 7 splits the bytes at 128, so both sides are linear in the unsigned values. -/
theorem addCore_vout_iff_signed :
    (addCore a m c).vout = true ↔ a.toInt + m.toInt + c.toNat < -128 ∨ 127 < a.toInt + m.toInt + c.toNat := by
  have ha := a.isLt
  have hm := m.isLt
  have hc := c.toNat_le
  rw [addCore_vout_iff_bits]
  simp only [getLsbD_seven_eq_decide, addCore_r_toNat, toInt_eq_of_byte, ne_eq, decide_eq_decide]
  split <;> split <;> omega

/-! ### The adder on the complement (R133) -/

theorem addCore_not_r : (addCore a (~~~m) c).r = a - m - (if c then 0#8 else 1#8) := by
  have ha := a.isLt
  have hm := m.isLt
  apply BitVec.eq_of_toNat_eq
  rw [addCore_r_toNat, BitVec.toNat_not, BitVec.toNat_sub, BitVec.toNat_sub]
  cases c
  · simp only [Bool.toNat_false, Bool.false_eq_true, if_false, BitVec.toNat_ofNat]
    omega
  · simp only [Bool.toNat_true, if_true, BitVec.toNat_ofNat]
    omega

theorem addCore_not_cout_iff : (addCore a (~~~m) c).cout = true ↔ m.toNat + (1 - c.toNat) ≤ a.toNat := by
  have hm := m.isLt
  have hc := c.toNat_le
  rw [addCore_cout_iff, BitVec.toNat_not]
  omega

theorem toInt_not_byte : (~~~m).toInt = -m.toInt - 1 := by
  have hm := m.isLt
  rw [toInt_eq_of_byte, toInt_eq_of_byte, BitVec.toNat_not]
  split <;> split <;> omega

theorem addCore_not_vout_iff_signed :
    (addCore a (~~~m) c).vout = true ↔
      a.toInt - m.toInt - (1 - (c.toNat : Int)) < -128 ∨ 127 < a.toInt - m.toInt - (1 - (c.toNat : Int)) := by
  rw [addCore_vout_iff_signed, toInt_not_byte]
  omega

end

/-! ### The effect on the state (R131) -/

/-- The step from `s` to `t` adds `m` and C to A: A, C, V from the adder, Z and N from its result, and nothing else
changes that an instruction's own operation could change. -/
structure AddsToA (m : Byte) (s t : State) : Prop where
  a : t.a = (addCore s.a m (s.flag .carry)).r
  carry : t.flag .carry = (addCore s.a m (s.flag .carry)).cout
  overflow : t.flag .overflow = (addCore s.a m (s.flag .carry)).vout
  rest : t.flag .zero = decide (t.a = 0#8) ∧ t.flag .negative = t.a.getLsbD 7 ∧
    FlagsKeptBut [.carry, .overflow, .zero, .negative] s t ∧ t.x = s.x ∧ t.y = s.y ∧ t.sp = s.sp ∧ SameMemory s t

/-- `SetZN` comes last and leaves C and V as the two flag writes before it made them (R131). -/
theorem addsToA_addA (m : Byte) (s : State) : AddsToA m s (addA m s) := by
  obtain ⟨hzero, hnegative, hkept⟩ := zeroNegativeFrom_setZN (addCore s.a m (s.flag .carry)).r
    (s := ((s.setA _).setFlag .carry (addCore s.a m (s.flag .carry)).cout).setFlag .overflow
      (addCore s.a m (s.flag .carry)).vout) rfl
  refine ⟨rfl, ?carry, ?overflow, hzero, hnegative, fun f hf => ?kept, rfl, rfl, rfl, fun _ => rfl⟩
  case carry =>
    rw [addA, hkept .carry (by decide), State.flag_setFlag_ne _ _ (by decide),
      State.flag_setFlag_same _ _ (by decide) (by decide)]
  case overflow =>
    rw [addA, hkept .overflow (by decide), State.flag_setFlag_same _ _ (by decide) (by decide)]
  case kept =>
    obtain ⟨hc, hv, hzn⟩ : f ≠ .carry ∧ f ≠ .overflow ∧ f ∉ [Flag.zero, .negative] := by simpa using hf
    rw [addA, hkept f hzn, State.flag_setFlag_ne _ _ hv, State.flag_setFlag_ne _ _ hc, State.flag_setA]

/-- The fetch before the effect and the cycles after it change nothing the effect reads or writes. -/
theorem AddsToA.of_fetched {m : Byte} {s u : State} {len : Nat} (h : AddsToA m (s.afterFetch len) u) (n : Nat) :
    AddsToA m s (u.addCycles n) := ⟨h.a, h.carry, h.overflow, h.rest⟩

theorem addA_keepsControl (m : Byte) (s : State) : KeepsControl s (addA m s) := ⟨rfl, rfl, rfl, rfl⟩

/-- An instruction whose effect is the addition of `f` of its operand completes with that sum: ADC with the operand
itself, SBC with its complement (R131, R133). -/
theorem completes_addsToA {i : Instr} {s : State} (f : Byte → Byte)
    (he : exec i s = readInstr i.operand (baseCycles i) (fun m => addA (f m)) s) (hr : readsOperand i.mnemonic = true) :
    ∃ t, Completes i s t ∧ AddsToA (f (operandOf i s)) s t :=
  ⟨_, completes_readInstr he hr (addA_keepsControl _ _), (addsToA_addA _ _).of_fetched _⟩

/-! ### The statements -/

/-- Settles O10: sum and carry are the adder's definition; the overflow bit by its three bits 7 and by the signed sum. -/
theorem adderLaw : Obligations.AdderLaw := fun a m c =>
  ⟨addCore_r_toNat a m c, addCore_cout_iff a m c, addCore_vout a m c, addCore_vout_eq_not_xor a m c,
    addCore_vout_iff_bits a m c, addCore_vout_iff_signed a m c⟩

/-- Settles O11: ADC is `addA` of the operand in every form. -/
theorem adcAddsWithCarry : Obligations.AdcAddsWithCarry := by
  refine ⟨rfl, fun i s h => ?_⟩
  obtain ⟨t, hcompletes, ha, hcarry, hoverflow, hrest⟩ := completes_addsToA id (exec_adc h) (by rw [h]; rfl)
  refine ⟨t, hcompletes, ?sum, ?carry, ?overflow, hrest⟩
  case sum => rw [ha]; exact addCore_r_toNat _ _ _
  case carry => rw [hcarry]; exact addCore_cout_iff _ _ _
  case overflow => rw [hoverflow]; exact addCore_vout_iff_signed _ _ _

/-- Settles O12: SBC is `addA` of the operand's complement in every form, and the adder there subtracts. -/
theorem sbcSubtractsWithBorrow : Obligations.SbcSubtractsWithBorrow := by
  refine ⟨rfl, fun i s h => ?_⟩
  obtain ⟨t, hcompletes, ha, hcarry, hoverflow, hrest⟩ := completes_addsToA (~~~·) (exec_sbc h) (by rw [h]; rfl)
  refine ⟨t, hcompletes, ?difference, ?carry, ?overflow, hrest⟩
  case difference => rw [ha, addCore_not_r]
  case carry => rw [hcarry, addCore_not_cout_iff]
  case overflow => rw [hoverflow, addCore_not_vout_iff_signed]

end Sys2Proof.Machine
end

section
/-! PROOFS. The read-modify-write shape (spec/40_addressing.md R105, spec/44_shift_rotate.md R154): its completion in every
form, and the two accesses of a form in memory. -/

namespace Sys2Proof.Machine

open Sys2Proof

/-- The mnemonics whose every form is `modifyInstr` (R105). -/
def modifiers : List Mnemonic := [.inc, .dec, .asl, .lsr, .rol, .ror]

theorem instrCycles_of_modify {i : Instr} {s : State} (hm : i.mnemonic ∈ modifiers) : instrCycles i s = baseCycles i := by
  have hmodify : ∀ m ∈ modifiers, readsOperand m = false ∧ m ≠ .illegal ∧ branchCondition m = none := by decide
  obtain ⟨hr, hi, hb⟩ := hmodify _ hm
  exact instrCycles_eq_baseCycles hr hi hb

theorem putResult_setP_keepsControl (o : Operand) (r p : Byte) (s : State) :
    KeepsControl s ((putResult o r s).setP p) :=
  ⟨putResult_pc o r s, putResult_runState o r s, putResult_haltReason o r s, putResult_cycles o r s⟩

theorem completes_modifyInstr {i : Instr} {s : State} {f : Byte → Byte → Byte × Byte}
    (he : exec i s = modifyInstr i.operand (baseCycles i) f s) (hm : i.mnemonic ∈ modifiers) :
    Completes i s (((putResult i.operand (f (operandOf i s) s.p).1 (fetched i s)).setP
      (f (operandOf i s) s.p).2).addCycles (baseCycles i)) :=
  completes_of_exec he (putResult_setP_keepsControl _ _ _ _) (instrCycles_of_modify hm)

theorem modifyAccesses_of_ne_acc {o : Operand} (h : o ≠ .acc) (f : Byte → Byte → Byte × Byte) (s : State) :
    modifyAccesses o f s = [readAccess s (resolve o s).ea, .write (resolve o s).ea (f (operandByte o s) s.p).1] := by
  cases o with
  | acc => exact absurd rfl h
  | _ => rfl

end Sys2Proof.Machine
end

section
/-! PROOFS. Increments and decrements (spec/43_incdec.md R140 to R145). In memory both are `modifyInstr` of a function that
answers the new byte and `SetZN` of it; on a register each is by definition the load of the byte next to its own (`incX s` is
`loadX (s.x + 1) s`). -/

namespace Sys2Proof.Machine

open Sys2Proof

/-- Instruction `i` is INC or DEC, and `r` is what it makes of the byte at its address in `s` (R140, R143). -/
def StepsByte (i : Instr) (s : State) (r : Byte) : Prop :=
  i.mnemonic = .inc ∧ r = memRead s (addressOf i s) + 1#8 ∨ i.mnemonic = .dec ∧ r = memRead s (addressOf i s) - 1#8

section
variable {i : Instr} {s : State} {r : Byte} (h : StepsByte i s r)
include h

theorem StepsByte.incDec : i.mnemonic = .inc ∨ i.mnemonic = .dec := h.imp And.left And.left

theorem StepsByte.mem_modifiers : i.mnemonic ∈ modifiers := by
  rcases h.incDec with hm | hm <;> rw [hm] <;> decide

/-- The operand is in memory in every form. -/
theorem StepsByte.operandOf_eq : operandOf i s = memRead s (addressOf i s) :=
  operandByte_of_mem (operand_ne_acc_of_incDec h.incDec) (operand_ne_imm_of_modify h.mem_modifiers) _

/-- Both instructions are one shape, with a function that answers `r` and `SetZN(r)`. -/
theorem StepsByte.modify : ∃ f : Byte → Byte → Byte × Byte,
    exec i s = modifyInstr i.operand (baseCycles i) f s ∧
    operationAccesses i (fetched i s) = modifyAccesses i.operand f (fetched i s) ∧
    f (operandOf i s) s.p = (r, setZN r s.p) := by
  rw [h.operandOf_eq]
  rcases h with ⟨hm, rfl⟩ | ⟨hm, rfl⟩
  · exact ⟨incByte, exec_inc hm, by rw [operationAccesses, hm], rfl⟩
  · exact ⟨decByte, exec_dec hm, by rw [operationAccesses, hm], rfl⟩

end

/-! ### The statements -/

/-- Settles O14: INC and DEC are `modifyInstr` at a memory address, one read and one write of the byte there. -/
theorem incDecMemoryByOne : Obligations.IncDecMemoryByOne := by
  refine ⟨rfl, rfl, fun i s r (h : StepsByte i s r) => ?_⟩
  obtain ⟨f, hexec, haccesses, hf⟩ := h.modify
  have hacc := operand_ne_acc_of_incDec h.incDec
  have hcompletes := completes_modifyInstr hexec h.mem_modifiers
  rw [hf, putResult_of_ne_acc hacc] at hcompletes
  refine ⟨?accesses, _, hcompletes, ?written, memWrite_sameMemoryBut _ _ _, zeroNegativeFrom_setZN r rfl, rfl, rfl, rfl, rfl⟩
  case accesses =>
    have hr : (f (operandOf i s) (fetched i s).p).1 = r := congrArg Prod.fst hf
    rw [haccesses, modifyAccesses_of_ne_acc hacc, hr]; rfl
  case written => exact memRead_memWrite_same _ _ _

/-- Settles O15: each of the four is `impliedInstr` of its register's load of the byte one away, modulo 256. -/
theorem incDecRegistersByOne : Obligations.IncDecRegistersByOne := by
  refine ⟨rfl, rfl, rfl, rfl, fun s => ⟨?inx, ?iny, ?dex, ?dey⟩⟩
  case inx => exact ⟨_, completes_impliedInstr (exec_inx rfl) rfl (by decide) (loadX_keepsControl _ _), loadX_effect rfl⟩
  case iny => exact ⟨_, completes_impliedInstr (exec_iny rfl) rfl (by decide) (loadY_keepsControl _ _), loadY_effect rfl⟩
  case dex => exact ⟨_, completes_impliedInstr (exec_dex rfl) rfl (by decide) (loadX_keepsControl _ _), loadX_effect rfl⟩
  case dey => exact ⟨_, completes_impliedInstr (exec_dey rfl) rfl (by decide) (loadY_keepsControl _ _), loadY_effect rfl⟩

end Sys2Proof.Machine
end

section
/-! PROOFS. Shifts and rotates (spec/44_shift_rotate.md R150 to R154). Each of the four is `modifyInstr` of a function that
answers `shifted r out`; joining a bit to seven bits of the operand, and reading off the eighth, are arithmetic on naturals. -/

namespace Sys2Proof.Machine

open Sys2Proof

/-! ### One bit in, one bit out, as arithmetic -/

section
variable (v : Byte) (b : BitVec 1)

theorem lowSeven_append_bit_toNat : (v.extractLsb' 0 7 ++ b).toNat = 2 * (v.toNat % 128) + b.toNat := by
  rw [BitVec.toNat_append, ← Nat.shiftLeft_add_eq_or_of_lt b.isLt, BitVec.extractLsb'_toNat, Nat.shiftLeft_eq, Nat.shiftRight_zero]
  omega

theorem bit_append_highSeven_toNat : (b ++ v.extractLsb' 1 7).toNat = 128 * b.toNat + v.toNat / 2 := by
  have hv := v.isLt
  rw [BitVec.toNat_append, ← Nat.shiftLeft_add_eq_or_of_lt (v.extractLsb' 1 7).isLt, BitVec.extractLsb'_toNat, Nat.shiftLeft_eq,
    Nat.shiftRight_eq_div_pow]
  omega

theorem getLsbD_seven_toNat : (v.getLsbD 7).toNat = v.toNat / 128 := by
  have hv := v.isLt
  rw [BitVec.getLsbD, Nat.toNat_testBit]
  omega

theorem getLsbD_zero_toNat : (v.getLsbD 0).toNat = v.toNat % 2 := by
  rw [BitVec.getLsbD, Nat.toNat_testBit, pow_zero, Nat.div_one]

end

/-- Shift `m` makes the result `r` of the byte `v` and the carry `c`, and shifts the bit `out` out (R150 to R153). -/
def MovesOneBit (m : Mnemonic) (v : Byte) (c : Bool) (r : Byte) (out : Bool) : Prop :=
  (m = .asl → r.toNat = 2 * v.toNat % 256 ∧ out = v.getLsbD 7) ∧
  (m = .lsr → r.toNat = v.toNat / 2 ∧ out = v.getLsbD 0) ∧
  (m = .rol → 256 * out.toNat + r.toNat = 2 * v.toNat + c.toNat) ∧
  (m = .ror → 2 * r.toNat + out.toNat = 256 * c.toNat + v.toNat)

section
variable (v : Byte) (c : Bool)

theorem movesOneBit_asl : MovesOneBit .asl v c (v.extractLsb' 0 7 ++ 0#1) (v.getLsbD 7) := by
  have hr : (v.extractLsb' 0 7 ++ 0#1).toNat = 2 * v.toNat % 256 := by
    rw [lowSeven_append_bit_toNat, BitVec.toNat_zero]
    omega
  simp [MovesOneBit, hr]

theorem movesOneBit_lsr : MovesOneBit .lsr v c (0#1 ++ v.extractLsb' 1 7) (v.getLsbD 0) := by
  have hr : (0#1 ++ v.extractLsb' 1 7).toNat = v.toNat / 2 := by
    rw [bit_append_highSeven_toNat, BitVec.toNat_zero]
    omega
  simp [MovesOneBit, hr]

theorem movesOneBit_rol : MovesOneBit .rol v c (v.extractLsb' 0 7 ++ BitVec.ofBool c) (v.getLsbD 7) := by
  have hr : 256 * (v.getLsbD 7).toNat + (v.extractLsb' 0 7 ++ BitVec.ofBool c).toNat = 2 * v.toNat + c.toNat := by
    rw [getLsbD_seven_toNat, lowSeven_append_bit_toNat, BitVec.toNat_ofBool]
    omega
  simpa [MovesOneBit] using hr

theorem movesOneBit_ror : MovesOneBit .ror v c (BitVec.ofBool c ++ v.extractLsb' 1 7) (v.getLsbD 0) := by
  have hr : 2 * (BitVec.ofBool c ++ v.extractLsb' 1 7).toNat + (v.getLsbD 0).toNat = 256 * c.toNat + v.toNat := by
    rw [getLsbD_zero_toNat, bit_append_highSeven_toNat, BitVec.toNat_ofBool]
    omega
  simpa [MovesOneBit] using hr

end

/-! ### The effect on P and on the place of the result (R154) -/

/-- Every bit of P after a shift: `SetZN` comes last and leaves the C written before it. -/
theorem getFlag_shifted (g : Flag) (r : Byte) (out : Bool) (p : Byte) :
    getFlag g (shifted r out p).2 =
      if g = .zero then r == 0#8 else if g = .negative then r.getLsbD 7 else if g = .carry then out else getFlag g p := by
  have hcarry : getFlag g (setFlag .carry out p) = if g = .carry then out else getFlag g p := by
    split
    · subst_vars; exact getFlag_setFlag_same _ _ (by decide) (by decide)
    · exact getFlag_setFlag_ne _ _ ‹_›
  rw [shifted, getFlag_setZN, hcarry]

theorem putsResult_putResult (i : Instr) (s : State) (r p : Byte) (n : Nat) :
    PutsResult i s (((putResult i.operand r (fetched i s)).setP p).addCycles n) r := by
  refine ⟨?place, putResult_x _ _ _, putResult_y _ _ _, putResult_sp _ _ _⟩
  by_cases hacc : i.operand = .acc
  · rw [if_pos hacc, hacc, putResult_acc]
    exact ⟨rfl, fun _ => rfl⟩
  · rw [if_neg hacc, putResult_of_ne_acc hacc]
    exact ⟨rfl, memRead_memWrite_same _ _ _, memWrite_sameMemoryBut _ _ _⟩

/-- The accesses of a read-modify-write instruction with the operand and the result named. -/
theorem modifyAccesses_eq {i : Instr} {s : State} (hm : i.mnemonic ∈ modifiers) (f : Byte → Byte → Byte × Byte) :
    modifyAccesses i.operand f (fetched i s) =
      if i.operand = .acc then []
      else [.read (addressOf i s) (operandOf i s), .write (addressOf i s) (f (operandOf i s) s.p).1] := by
  split
  case isTrue hacc => rw [hacc]; rfl
  case isFalse hacc =>
    have hoperand : operandOf i s = memRead (fetched i s) (addressOf i s) :=
      operandByte_of_mem hacc (operand_ne_imm_of_modify hm) _
    rw [modifyAccesses_of_ne_acc hacc, readAccess, ← hoperand]; rfl

/-! ### The four instructions as one shape -/

/-- The mnemonics of R150 to R153. -/
def IsShift (m : Mnemonic) : Prop := m = .asl ∨ m = .lsr ∨ m = .rol ∨ m = .ror

theorem IsShift.mem_modifiers {m : Mnemonic} (h : IsShift m) : m ∈ modifiers := by
  rcases h with rfl | rfl | rfl | rfl <;> decide

/-- All four are one shape, with a function that answers the moved byte and the P that goes with it. -/
theorem IsShift.modify {i : Instr} {s : State} (h : IsShift i.mnemonic) : ∃ f r out,
    exec i s = modifyInstr i.operand (baseCycles i) f s ∧
    operationAccesses i (fetched i s) = modifyAccesses i.operand f (fetched i s) ∧
    f (operandOf i s) s.p = shifted r out s.p ∧
    MovesOneBit i.mnemonic (operandOf i s) (s.flag .carry) r out := by
  rcases h with hm | hm | hm | hm
  · exact ⟨shiftLeft, _, _, exec_asl hm, by rw [operationAccesses, hm], rfl, hm ▸ movesOneBit_asl _ _⟩
  · exact ⟨shiftRight, _, _, exec_lsr hm, by rw [operationAccesses, hm], rfl, hm ▸ movesOneBit_lsr _ _⟩
  · exact ⟨rotateLeft, _, _, exec_rol hm, by rw [operationAccesses, hm], rfl, hm ▸ movesOneBit_rol _ _⟩
  · exact ⟨rotateRight, _, _, exec_ror hm, by rw [operationAccesses, hm], rfl, hm ▸ movesOneBit_ror _ _⟩

/-! ### The statement -/

/-- Settles O16: each shift is `modifyInstr` of a function that answers `shifted r out`, with `r` and `out` the arithmetic of
its one moved bit. -/
theorem shiftsMoveOneBit : Obligations.ShiftsMoveOneBit := by
  refine ⟨rfl, rfl, rfl, rfl, fun i s (h : IsShift i.mnemonic) => ?_⟩
  obtain ⟨f, r, out, hexec, haccesses, hf, hmoves⟩ := h.modify (s := s)
  have hcompletes := completes_modifyInstr hexec h.mem_modifiers
  rw [hf] at hcompletes
  have hflag := fun g => getFlag_shifted g r out s.p
  have hcarry : getFlag .carry (shifted r out s.p).2 = out := hflag .carry
  refine ⟨_, r, hcompletes, putsResult_putResult _ _ _ _ _, ?accesses, hflag .zero, hflag .negative, fun g hg => ?kept, ?moves⟩
  case accesses => rw [haccesses, modifyAccesses_eq h.mem_modifiers, hf]; rfl
  case kept =>
    obtain ⟨hc, hz, hn⟩ : g ≠ .carry ∧ g ≠ .zero ∧ g ≠ .negative := by simpa using hg
    exact (hflag g).trans (by rw [if_neg hz, if_neg hn, if_neg hc]; rfl)
  case moves => rw [← hcarry] at hmoves; exact hmoves

end Sys2Proof.Machine
end

section
/-! PROOFS. Logical operations and bit test (spec/45_logical.md R160 to R163). AND, ORA and EOR are each by definition the
load of A with the combined byte (`andA m s` is `loadA (s.a &&& m) s`), so their effect is that of the load; BIT is three
writes of a flag. -/

namespace Sys2Proof.Machine

open Sys2Proof

/-! ### The three operations as one shape (R160 to R162) -/

/-- Every bit of `r` is the operation of `m` on the same bit of the accumulator `a` and of the operand `v`. -/
def CombinesBits (m : Mnemonic) (a v r : Byte) : Prop :=
  ∀ k < 8,
    (m = .and → r.getLsbD k = (a.getLsbD k && v.getLsbD k)) ∧
    (m = .ora → r.getLsbD k = (a.getLsbD k || v.getLsbD k)) ∧
    (m = .eor → r.getLsbD k = xor (a.getLsbD k) (v.getLsbD k))

theorem combinesBits_and (a v : Byte) : CombinesBits .and a v (a &&& v) :=
  fun _ _ => ⟨fun _ => BitVec.getLsbD_and, nofun, nofun⟩

theorem combinesBits_ora (a v : Byte) : CombinesBits .ora a v (a ||| v) :=
  fun _ _ => ⟨nofun, fun _ => BitVec.getLsbD_or, nofun⟩

theorem combinesBits_eor (a v : Byte) : CombinesBits .eor a v (a ^^^ v) :=
  fun _ _ => ⟨nofun, nofun, fun _ => BitVec.getLsbD_xor⟩

/-- The mnemonics of R160 to R162. -/
def IsLogical (m : Mnemonic) : Prop := m = .and ∨ m = .ora ∨ m = .eor

theorem IsLogical.readsOperand {m : Mnemonic} (h : IsLogical m) : Machine.readsOperand m = true := by
  rcases h with rfl | rfl | rfl <;> rfl

/-- All three are one shape: on its operand the effect is the load of A with the combined byte. -/
theorem IsLogical.read {i : Instr} {s : State} (h : IsLogical i.mnemonic) : ∃ f r,
    exec i s = readInstr i.operand (baseCycles i) f s ∧
    f (operandOf i s) (fetched i s) = loadA r (fetched i s) ∧
    CombinesBits i.mnemonic s.a (operandOf i s) r := by
  rcases h with hm | hm | hm
  · exact ⟨andA, _, exec_and hm, rfl, hm ▸ combinesBits_and _ _⟩
  · exact ⟨orA, _, exec_ora hm, rfl, hm ▸ combinesBits_ora _ _⟩
  · exact ⟨xorA, _, exec_eor hm, rfl, hm ▸ combinesBits_eor _ _⟩

/-! ### The effect of BIT (R163) -/

/-- Every bit of P after a write of one of the six stored flags. -/
theorem State.flag_setFlag (s : State) {f : Flag} (g : Flag) (b : Bool) (hu : f ≠ .unused) (hb : f ≠ .brk) :
    (s.setFlag f b).flag g = if g = f then b else s.flag g := by
  split
  case isTrue hg => rw [hg, State.flag_setFlag_same _ _ hu hb]
  case isFalse hg => exact State.flag_setFlag_ne _ _ hg

theorem flag_bitTest (m : Byte) (s : State) (g : Flag) :
    (bitTest m s).flag g =
      if g = .overflow then m.getLsbD 6 else if g = .negative then m.getLsbD 7
      else if g = .zero then s.a &&& m == 0#8 else s.flag g := by
  rw [bitTest, State.flag_setFlag _ _ _ (by decide) (by decide), State.flag_setFlag _ _ _ (by decide) (by decide),
    State.flag_setFlag _ _ _ (by decide) (by decide)]

/-- BIT writes no register but P, and no memory (R163). -/
theorem bitTest_frame (m : Byte) (s : State) : (bitTest m s).a = s.a ∧ (bitTest m s).x = s.x ∧ (bitTest m s).y = s.y ∧
    (bitTest m s).sp = s.sp ∧ SameMemory s (bitTest m s) := by
  simp [bitTest, SameMemory]

theorem bitTest_effect {m : Byte} {s t : State} {len n : Nat} (ht : t = (bitTest m (s.afterFetch len)).addCycles n) :
    t.flag .zero = decide (s.a &&& m = 0#8) ∧ t.flag .negative = m.getLsbD 7 ∧ t.flag .overflow = m.getLsbD 6 ∧
      FlagsKeptBut [.zero, .negative, .overflow] s t ∧
      t.a = s.a ∧ t.x = s.x ∧ t.y = s.y ∧ t.sp = s.sp ∧ SameMemory s t := by
  subst ht
  have hflag := flag_bitTest m (s.afterFetch len)
  refine ⟨hflag .zero, hflag .negative, hflag .overflow, fun g hg => ?_, bitTest_frame m (s.afterFetch len)⟩
  obtain ⟨hz, hn, hv⟩ : g ≠ .zero ∧ g ≠ .negative ∧ g ≠ .overflow := by simpa using hg
  exact (hflag g).trans (by rw [if_neg hv, if_neg hn, if_neg hz]; rfl)

theorem bitTest_keepsControl (m : Byte) (s : State) : KeepsControl s (bitTest m s) := ⟨rfl, rfl, rfl, rfl⟩

/-! ### The statements -/

/-- Settles O17: each of the three loads A with a byte whose every bit is the operation of the two bits. -/
theorem logicalOperationsAreBitwise : Obligations.LogicalOperationsAreBitwise := by
  refine ⟨rfl, rfl, rfl, fun i s (h : IsLogical i.mnemonic) => ?_⟩
  obtain ⟨f, r, hexec, hload, hbits⟩ := h.read (s := s)
  have hcompletes := completes_readInstr hexec h.readsOperand (hload ▸ loadA_keepsControl _ _)
  rw [hload] at hcompletes
  exact ⟨_, hcompletes, zeroNegativeFrom_setZN r rfl, rfl, rfl, rfl, fun _ => rfl, hbits⟩

/-- Settles O18: in both forms BIT is `bitTest` of the operand, which writes Z, N and V and nothing else. -/
theorem bitTestsTheOperand : Obligations.BitTestsTheOperand := by
  refine ⟨rfl, fun i s h => ⟨_, completes_readInstr (exec_bit h) ?reads (bitTest_keepsControl _ _), bitTest_effect rfl⟩⟩
  case reads => rw [h]; rfl

end Sys2Proof.Machine
end

section
/-! PROOFS. Compares (spec/46_compare.md R170 to R173). `compare` against the adder on the complement with the carry in
forced to 1; CMP, CPX and CPY are one shape, `readInstr` of the effect that writes `compare` of a register to P. -/

namespace Sys2Proof.Machine

open Sys2Proof

/-! ### Compare and the adder (R170) -/

section
variable (reg m p : Byte)

theorem getFlag_compare_carry : getFlag .carry (compare reg m p) = decide (m.toNat ≤ reg.toNat) :=
  getFlag_compare .carry reg m p

theorem getFlag_compare_zero : getFlag .zero (compare reg m p) = decide (reg = m) :=
  getFlag_compare .zero reg m p

theorem getFlag_compare_negative : getFlag .negative (compare reg m p) = (reg - m).getLsbD 7 :=
  getFlag_compare .negative reg m p

theorem getFlag_compare_ne {f : Flag} (hc : f ≠ .carry) (hz : f ≠ .zero) (hn : f ≠ .negative) :
    getFlag f (compare reg m p) = getFlag f p := by
  rw [getFlag_compare, if_neg hn, if_neg hz, if_neg hc]

/-- With the carry in forced to 1 there is no borrow to subtract. -/
theorem addCore_not_true_r : (addCore reg (~~~m) true).r = reg - m := by
  rw [addCore_not_r, if_pos rfl, BitVec.sub_zero]

theorem addCore_not_true_cout : (addCore reg (~~~m) true).cout = decide (m.toNat ≤ reg.toNat) := by
  rw [Bool.eq_iff_iff, addCore_not_cout_iff, decide_eq_true_iff, Bool.toNat_true, Nat.sub_self, Nat.add_zero]

end

/-! ### The three instructions as one shape (R171 to R173) -/

/-- Instruction `i` is a compare, and `reg` is the byte of its register in `s`. -/
def ComparesByte (i : Instr) (s : State) (reg : Byte) : Prop :=
  i.mnemonic = .cmp ∧ reg = s.a ∨ i.mnemonic = .cpx ∧ reg = s.x ∨ i.mnemonic = .cpy ∧ reg = s.y

section
variable {i : Instr} {s : State} {reg : Byte} (h : ComparesByte i s reg)
include h

theorem ComparesByte.readsOperand : Machine.readsOperand i.mnemonic = true := by
  rcases h with ⟨hm, -⟩ | ⟨hm, -⟩ | ⟨hm, -⟩ <;> rw [hm] <;> rfl

theorem ComparesByte.read : ∃ f,
    exec i s = readInstr i.operand (baseCycles i) f s ∧
    f (operandOf i s) (fetched i s) = (fetched i s).setP (compare reg (operandOf i s) s.p) := by
  rcases h with ⟨hm, rfl⟩ | ⟨hm, rfl⟩ | ⟨hm, rfl⟩
  · exact ⟨compareA, exec_cmp hm, rfl⟩
  · exact ⟨compareX, exec_cpx hm, rfl⟩
  · exact ⟨compareY, exec_cpy hm, rfl⟩

/-- A compare completes after a write of P and nothing else. -/
theorem ComparesByte.completes : ∃ n,
    Completes i s (((fetched i s).setP (compare reg (operandOf i s) s.p)).addCycles n) := by
  obtain ⟨f, hexec, heffect⟩ := h.read
  have hcompletes := completes_readInstr hexec h.readsOperand (heffect ▸ ⟨rfl, rfl, rfl, rfl⟩)
  rw [heffect] at hcompletes
  exact ⟨_, hcompletes⟩

end

/-! ### The statements -/

/-- Settles O19: the bits of P after `compare`, and the adder's result and carry out on the complement with carry in 1. -/
theorem compareIsSubtractionWithCarryForced : Obligations.CompareIsSubtractionWithCarryForced := by
  refine fun reg m p => ⟨getFlag_compare_carry reg m p, getFlag_compare_zero reg m p, getFlag_compare_negative reg m p,
    (addCore_not_true_r reg m).symm, ?carry, fun _ => getFlag_compare_ne reg m p⟩
  case carry => rw [getFlag_compare_carry, addCore_not_true_cout]

/-- Settles O20: each of the three writes `compare` of its register to P, in every form, and no other field. -/
theorem comparesSetCarryZeroNegative : Obligations.ComparesSetCarryZeroNegative := by
  refine ⟨rfl, rfl, rfl, fun i s reg (h : ComparesByte i s reg) => ?_⟩
  obtain ⟨n, hcompletes⟩ := h.completes
  refine ⟨_, hcompletes, getFlag_compare_carry reg _ _, getFlag_compare_zero reg _ _, getFlag_compare_negative reg _ _,
    fun g hg => ?kept, rfl, rfl, rfl, rfl, fun _ => rfl⟩
  case kept =>
    obtain ⟨hc, hz, hn⟩ : g ≠ .carry ∧ g ≠ .zero ∧ g ≠ .negative := by simpa using hg
    exact getFlag_compare_ne reg _ _ hc hz hn

end Sys2Proof.Machine
end

section
/-! PROOFS. Jumps, the call and the return from it (spec/48_jump_call.md R190, R192, R193). The call pushes two bytes: the
rules below carry a read and a frame through one further push, so they serve any run of pushes. -/

namespace Sys2Proof.Machine

open Sys2Proof

/-! ### A further push (R50) -/

theorem stackAddr_inj {p q : Byte} : stackAddr p = stackAddr q ↔ p = q :=
  ⟨fun h => (word_injective h).2, congrArg stackAddr⟩

/-- A push leaves every other slot of page 1 as it was, across the wrap of SP too. -/
theorem memRead_push_other_slot (v : Byte) {s : State} {sp : Byte} (h : sp ≠ s.sp) :
    memRead (push v s) (stackAddr sp) = memRead s (stackAddr sp) := by
  rw [memRead_push, if_neg (mt stackAddr_inj.mp h)]

/-- A push adds its own slot to the bytes that may differ. -/
theorem sameMemoryBut_push {as : List Addr} {s t : State} (h : SameMemoryBut as s t) (v : Byte) :
    SameMemoryBut (as ++ [stackAddr t.sp]) s (push v t) := by
  intro addr haddr
  rw [List.mem_append, not_or] at haddr
  obtain ⟨hother, hslot⟩ := haddr
  rw [push_sameMemoryBut_slot v t addr hslot, h addr hother]

/-! ### The call (R192) -/

/-- PC past the three bytes of the call, less 1, is the address of its last byte. -/
theorem callReturnAddress_eq (pc : Addr) : pc + 3#16 - 1#16 = pc + 2#16 := by
  bv_omega

/-- The state after a JSR, with the two bytes it pushes named from the PC of the JSR itself. -/
theorem exec_jsr_eq (addr : Addr) (s : State) :
    exec (.jsr addr) s = .next (((push (loByte (s.pc + 2#16)) (push (hiByte (s.pc + 2#16)) (s.afterFetch 3))).setPc
      addr).addCycles 6) := by
  rw [← callReturnAddress_eq]; rfl

/-! ### The statements -/

/-- Settles O24: the high byte lands in the slot of SP and survives the push of the low byte one slot below. -/
theorem jsrPushesReturnAddress : Obligations.JsrPushesReturnAddress := by
  refine ⟨rfl, fun addr s => ⟨?accesses, _, exec_jsr_eq addr s, rfl, ?sp, ?high, ?low, ?frame, ?kept⟩⟩
  case accesses => rw [← callReturnAddress_eq]; rfl
  case sp => exact BitVec.sub_sub s.sp 1#8 1#8
  case high =>
    have hne : s.sp ≠ s.sp - 1#8 := by bv_omega
    rw [memRead_addCycles, memRead_setPc]
    exact (memRead_push_other_slot _ hne).trans (memRead_push_slot _ (s.afterFetch 3))
  case low =>
    rw [memRead_addCycles, memRead_setPc]
    exact memRead_push_slot _ (push _ (s.afterFetch 3))
  case frame =>
    intro other hother
    rw [memRead_addCycles, memRead_setPc]
    exact sameMemoryBut_push (push_sameMemoryBut_slot _ (s.afterFetch 3)) _ other hother
  case kept => simp

/-- Settles O22: JMP absolute is by definition `jumpInstr` of an operand that resolves to its own address. -/
theorem jmpAbsoluteSetsPcAlone : Obligations.JmpAbsoluteSetsPcAlone :=
  ⟨rfl, fun _ _ => ⟨rfl, rfl⟩⟩

/-- Settles O25: two pulls read the two slots above SP, and PC past the one byte of the RTS is replaced. -/
theorem rtsPullsPcPlusOne : Obligations.RtsPullsPcPlusOne := by
  refine ⟨rfl, fun s => ?_⟩
  have hsp : s.sp + 2#8 = s.sp + 1#8 + 1#8 := (BitVec.add_assoc s.sp 1#8 1#8).symm
  show impliedInstr 6 returnFromSubroutine s = _
  rw [impliedInstr, returnFromSubroutine_eq, hsp]; rfl

end Sys2Proof.Machine
end

section
/-! PROOFS. Stack, flag and no-op instructions (spec/49_stack_flags_system.md R200 to R202, R204 to R211). PHA and PHP are one
push after the fetch, PLA is one pull and the writes of A, Z and N, and the seven flag instructions are one
write of a flag. -/

namespace Sys2Proof.Machine

open Sys2Proof

/-! ### The push and the pull of an instruction (R200 to R202) -/

theorem push_keepsControl (v : Byte) (s : State) : KeepsControl s (push v s) := ⟨rfl, rfl, rfl, rfl⟩

theorem pullA_keepsControl (s : State) : KeepsControl s (pullA s) := ⟨rfl, rfl, rfl, rfl⟩

theorem push_effect {v : Byte} {s t : State} {len n : Nat} (ht : t = (push v (s.afterFetch len)).addCycles n) :
    memRead t (stackAddr s.sp) = v ∧ SameMemoryBut [stackAddr s.sp] s t ∧ t.sp = s.sp - 1#8 ∧
      t.a = s.a ∧ t.x = s.x ∧ t.y = s.y ∧ t.p = s.p := by
  subst ht
  exact ⟨memRead_push_slot v (s.afterFetch len), push_sameMemoryBut_slot v (s.afterFetch len), rfl, rfl, rfl, rfl, rfl⟩

/-! ### The flag instructions as one shape (R204 to R210) -/

theorem setFlag_keepsControl (f : Flag) (v : Bool) (s : State) : KeepsControl s (s.setFlag f v) := ⟨rfl, rfl, rfl, rfl⟩

/-- One write of a stored flag, in one byte and two cycles, writes no other bit of P and no other field. -/
theorem writesFlag_of_exec {f : Flag} {v : Bool} {i : Instr} {s : State}
    (he : exec i s = impliedInstr 2 (fun t => t.setFlag f v) s) (hu : f ≠ .unused) (hb : f ≠ .brk) :
    WritesFlag f v i s := by
  refine ⟨_, he, ?written, fun g hg => ?kept, rfl, rfl, rfl, rfl, rfl, rfl, rfl, rfl, fun _ => rfl⟩
  case written => exact State.flag_setFlag_same (s.afterFetch 1) v hu hb
  case kept => exact State.flag_setFlag_ne (s.afterFetch 1) v (List.ne_of_not_mem_cons hg)

/-! ### The statements -/

/-- Settles O29: both are `impliedInstr` of one push, of A or of P with B and U set. -/
theorem pushInstructionsStoreAndDecrement : Obligations.PushInstructionsStoreAndDecrement := by
  refine ⟨rfl, rfl, fun s => ⟨?pha, ?php⟩⟩
  case pha => exact ⟨_, completes_impliedInstr (exec_pha rfl) rfl (by decide) (push_keepsControl _ _), push_effect rfl⟩
  case php => exact ⟨_, completes_impliedInstr (exec_php rfl) rfl (by decide) (push_keepsControl _ _), push_effect rfl⟩

/-- Settles O33: each of the seven is `impliedInstr` of the write of its flag. -/
theorem flagInstructionsWriteOneFlag : Obligations.FlagInstructionsWriteOneFlag := by
  refine ⟨rfl, rfl, rfl, rfl, rfl, rfl, rfl, fun s => ⟨?clc, ?sec, ?cli, ?sei, ?cld, ?sed, ?clv⟩⟩
  case clc => exact writesFlag_of_exec (exec_clc rfl) (by decide) (by decide)
  case sec => exact writesFlag_of_exec (exec_sec rfl) (by decide) (by decide)
  case cli => exact writesFlag_of_exec (exec_cli rfl) (by decide) (by decide)
  case sei => exact writesFlag_of_exec (exec_sei rfl) (by decide) (by decide)
  case cld => exact writesFlag_of_exec (exec_cld rfl) (by decide) (by decide)
  case sed => exact writesFlag_of_exec (exec_sed rfl) (by decide) (by decide)
  case clv => exact writesFlag_of_exec (exec_clv rfl) (by decide) (by decide)

/-- Settles O30: `impliedInstr` of one pull, whose byte goes to A and by `SetZN` to Z and N. -/
theorem plaPullsAccumulator : Obligations.PlaPullsAccumulator := by
  refine ⟨rfl, fun s => ⟨_, completes_impliedInstr (exec_pla rfl) rfl (by decide) (pullA_keepsControl _), ?_⟩⟩
  exact ⟨rfl, rfl, zeroNegativeFrom_setZN _ rfl, rfl, rfl, fun _ => rfl⟩

/-- Settles O34: the effect of NOP is the identity, so only what `impliedInstr` itself does is left. -/
theorem nopAdvancesPcAlone : Obligations.NopAdvancesPcAlone :=
  ⟨rfl, fun _ => exec_nop rfl⟩

end Sys2Proof.Machine
end

section
/-! PROOFS. Encoding and decoding (spec/30_encoding.md R70 to R79). The opcode map covers every byte once; the instructions and
the rows of the table are tied in both directions: every official instruction is made by the format of a row, and the format
of a row makes only instructions with that row's opcode, mnemonic and mode. -/

namespace Sys2Proof

open Sys2Proof.Machine

/-! ### The opcode map covers every byte once (R75, R77) -/

/-- The official opcodes and the illegal ones, as numbers. -/
def allOpcodes : List Nat := opcodeTable.map (fun r => r.opcode.toNat) ++ illegalOpcodes.map (fun op => op.toNat)

theorem allOpcodes_perm : allOpcodes.Perm (List.range 256) := by
  have hsorted : allOpcodes.insertionSort (· ≤ ·) = List.range 256 := by decide +kernel
  rw [← hsorted]
  exact (List.perm_insertionSort _ _).symm

theorem allOpcodes_nodup : allOpcodes.Nodup := allOpcodes_perm.nodup_iff.mpr List.nodup_range

theorem opcodeTable_opcodes_nodup : (opcodeTable.map (fun r => r.opcode.toNat)).Nodup :=
  (List.nodup_append'.mp allOpcodes_nodup).1

theorem lookup_eq_none_iff {op : Byte} : lookup op = none ↔ ∀ r ∈ opcodeTable, r.opcode ≠ op := by
  simp [lookup]

theorem lookup_eq_some {op : Byte} {r : Row} (h : lookup op = some r) : r ∈ opcodeTable ∧ r.opcode = op :=
  ⟨List.mem_of_find?_eq_some h, by simpa using List.find?_some h⟩

/-- No two rows share an opcode, so the lookup finds the row it is asked for. -/
theorem lookup_opcode {r : Row} (hr : r ∈ opcodeTable) : lookup r.opcode = some r := by
  cases hl : lookup r.opcode with
  | none => exact absurd rfl (lookup_eq_none_iff.mp hl r hr)
  | some q =>
    obtain ⟨hq, heq⟩ := lookup_eq_some hl
    rw [List.inj_on_of_nodup_map opcodeTable_opcodes_nodup hq hr (congrArg BitVec.toNat heq)]

theorem lookup_eq_none_iff_illegal {op : Byte} : lookup op = none ↔ isIllegalOpcode op = true := by
  have hcover : op.toNat ∈ allOpcodes := allOpcodes_perm.mem_iff.mpr (List.mem_range.mpr op.isLt)
  obtain ⟨-, -, hdisjoint⟩ := List.nodup_append'.mp allOpcodes_nodup
  rw [lookup_eq_none_iff, isIllegalOpcode, List.contains_iff_mem]
  constructor
  · intro hofficial
    rcases List.mem_append.mp hcover with h | h
    · obtain ⟨r, hr, heq⟩ := List.mem_map.mp h
      exact absurd (BitVec.eq_of_toNat_eq heq) (hofficial r hr)
    · obtain ⟨q, hq, heq⟩ := List.mem_map.mp h
      exact BitVec.eq_of_toNat_eq heq ▸ hq
  · rintro hillegal r hr rfl
    exact hdisjoint (List.mem_map_of_mem hr) (List.mem_map_of_mem hillegal)

theorem descriptor_eq_none_iff {op : Byte} : descriptor op = none ↔ isIllegalOpcode op = true := by
  rw [descriptor, Option.map_eq_none_iff, lookup_eq_none_iff_illegal]

/-! ### Rows and instructions -/

/-- Format `f` makes the instruction `i` of the operand bytes `ops`, low byte first (R47, R71). -/
inductive Form.Makes : Form → Instr → List Byte → Prop
  | f1 (i : Instr) : Makes (.f1 i) i []
  | f2 (mk : Byte → Instr) (v : Byte) : Makes (.f2 mk) (mk v) [v]
  | f3 (mk : Addr → Instr) (addr : Addr) : Makes (.f3 mk) (mk addr) [loByte addr, hiByte addr]

/-- What a row of the table promises of an instruction its format makes of the operand bytes `ops` (R74). -/
structure Row.Describes (r : Row) (i : Instr) (ops : List Byte) : Prop where
  encode : encode i = r.opcode :: ops
  mnemonic : i.mnemonic = r.desc.mnemonic
  mode : i.operand.mode = r.desc.mode
  width : ops.length = r.desc.mode.width

/-- The rows stand in the order of the constructors. -/
theorem exists_row_makes {i : Instr} (h : i.mnemonic ≠ .illegal) :
    ∃ r ∈ opcodeTable, r.form.Makes i (encode i).tail := by
  have hrow : ∃ r, opcodeTable[i.ctorIdx]? = some r ∧ r.form.Makes i (encode i).tail := by
    cases i <;> first | exact absurd rfl h | exact ⟨_, rfl, by constructor⟩
  obtain ⟨r, hr, hmakes⟩ := hrow
  exact ⟨r, List.mem_of_getElem? hr, hmakes⟩

/-- Read off each of the 151 rows. -/
theorem describes_of_makes : ∀ r ∈ opcodeTable, ∀ {i : Instr} {ops : List Byte}, r.form.Makes i ops → r.Describes i ops := by
  simp only [opcodeTable, opcodesLoadStore, opcodesTransfer, opcodesArithmetic, opcodesIncDec, opcodesShiftRotate,
    opcodesLogical, opcodesCompare, opcodesBranch, opcodesJumpCall, opcodesStackFlagsSystem, List.cons_append,
    List.nil_append, List.forall_mem_cons, List.not_mem_nil, false_implies, implies_true, and_true]
  repeat' apply And.intro
  all_goals rintro _ _ ⟨⟩; exact ⟨rfl, rfl, rfl, rfl⟩

/-! ### The decoder -/

theorem instrOf_of_lookup_eq_none {op : Byte} (h : lookup op = none) (b1 b2 : Byte) : instrOf op b1 b2 = .illegal op := by
  rw [instrOf, h]

theorem Form.Makes.instrOf_eq {r : Row} {i : Instr} {ops : List Byte} {op : Byte} (hm : r.form.Makes i ops)
    (h : lookup op = some r) (rest : List Byte) :
    instrOf op ((ops ++ rest).getD 0 0) ((ops ++ rest).getD 1 0) = i := by
  obtain ⟨o, d, form⟩ := r
  rw [instrOf, h]
  cases hm with
  | f1 => rfl
  | f2 => rfl
  | f3 mk addr => exact congrArg mk (word_hiByte_loByte addr)

theorem makes_instrOf {op : Byte} {r : Row} (h : lookup op = some r) (b1 b2 : Byte) :
    r.form.Makes (instrOf op b1 b2) ([b1, b2].take r.desc.mode.width) := by
  obtain ⟨hr, -⟩ := lookup_eq_some h
  have hdescribes := fun {i ops} => describes_of_makes r hr (i := i) (ops := ops)
  obtain ⟨o, d, form⟩ := r
  rw [instrOf, h]
  cases form with
  | f1 i => rw [← (hdescribes (.f1 i)).width]; exact .f1 i
  | f2 mk => rw [← (hdescribes (.f2 mk b1)).width]; exact .f2 mk b1
  | f3 mk =>
    rw [← (hdescribes (.f3 mk (word b2 b1))).width]
    simpa using Form.Makes.f3 mk (word b2 b1)

theorem describes_instrOf {op : Byte} {r : Row} (h : lookup op = some r) (b1 b2 : Byte) :
    r.Describes (instrOf op b1 b2) ([b1, b2].take r.desc.mode.width) :=
  describes_of_makes r (lookup_eq_some h).1 (makes_instrOf h b1 b2)

theorem operandWidth_of_lookup {op : Byte} {r : Row} (h : lookup op = some r) : operandWidth op = r.desc.mode.width := by
  simp [operandWidth, descriptor, h]

theorem operandWidth_of_lookup_eq_none {op : Byte} (h : lookup op = none) : operandWidth op = 0 := by
  simp [operandWidth, descriptor, h]

theorem Mode.width_le (m : Mode) : m.width ≤ 2 := by cases m <;> decide

theorem operandWidth_le (op : Byte) : operandWidth op ≤ 2 := by
  cases h : lookup op with
  | none => simp [operandWidth_of_lookup_eq_none h]
  | some r => exact operandWidth_of_lookup h ▸ Mode.width_le _

/-- An instruction that is not `illegal` is well formed (R73, R223). -/
theorem wf_of_mnemonic_ne {i : Instr} (h : i.mnemonic ≠ .illegal) : i.wf = true := by
  cases i <;> first | exact absurd rfl h | rfl

theorem mnemonic_ne_illegal_of_mem : ∀ r ∈ opcodeTable, r.desc.mnemonic ≠ .illegal := by decide +kernel

theorem instrOf_wf (op b1 b2 : Byte) : (instrOf op b1 b2).wf = true := by
  cases h : lookup op with
  | none => rw [instrOf_of_lookup_eq_none h]; exact lookup_eq_none_iff_illegal.mp h
  | some r =>
    apply wf_of_mnemonic_ne
    rw [(describes_instrOf h b1 b2).mnemonic]
    exact mnemonic_ne_illegal_of_mem r (lookup_eq_some h).1

/-- The bytes of a decoded instruction are the bytes it was decoded from (R70, R79). -/
theorem encode_instrOf (op b1 b2 : Byte) : encode (instrOf op b1 b2) = op :: [b1, b2].take (operandWidth op) := by
  cases h : lookup op with
  | none => rw [instrOf_of_lookup_eq_none h, operandWidth_of_lookup_eq_none h]; rfl
  | some r => rw [(describes_instrOf h b1 b2).encode, operandWidth_of_lookup h, (lookup_eq_some h).2]

theorem decode_cons_of_le {op : Byte} {tl : List Byte} (h : operandWidth op ≤ tl.length) :
    decode (op :: tl) = .ok (instrOf op (tl.getD 0 0) (tl.getD 1 0), tl.drop (operandWidth op)) := by
  rw [decode, if_neg (Nat.not_lt.mpr h)]

theorem decode_eq_ok {bytes rest : List Byte} {i : Instr} (h : decode bytes = .ok (i, rest)) :
    ∃ op tl, bytes = op :: tl ∧ operandWidth op ≤ tl.length ∧ i = instrOf op (tl.getD 0 0) (tl.getD 1 0) ∧
      rest = tl.drop (operandWidth op) := by
  cases bytes with
  | nil => cases h
  | cons op tl =>
    by_cases hw : operandWidth op ≤ tl.length
    · rw [decode_cons_of_le hw] at h
      cases h
      exact ⟨op, tl, rfl, hw, rfl, rfl⟩
    · rw [decode, if_pos (Nat.not_le.mp hw)] at h
      cases h

/-- At most two bytes read with a default are the first bytes of a list that is long enough. -/
theorem take_getD_append_drop {w : Nat} {tl : List Byte} (hw : w ≤ 2) (hlen : w ≤ tl.length) :
    [tl.getD 0 0, tl.getD 1 0].take w ++ tl.drop w = tl := by
  match w, tl with
  | 0, tl => rfl
  | 1, b :: tl => rfl
  | 2, b :: c :: tl => rfl

/-! ### The statements -/

/-- Settles O3: the row that makes the instruction is the one its opcode finds, and the format undoes the encoder. -/
theorem decodeInvertsEncode : Obligations.DecodeInvertsEncode := by
  intro i rest hwf
  by_cases hi : i.mnemonic = .illegal
  · obtain ⟨op, rfl⟩ : ∃ op, i = .illegal op := by cases i <;> first | cases hi; done | exact ⟨_, rfl⟩
    have hnone := lookup_eq_none_iff_illegal.mpr hwf
    have hwidth := operandWidth_of_lookup_eq_none hnone
    show decode (op :: rest) = _
    rw [decode_cons_of_le (hwidth ▸ Nat.zero_le _), instrOf_of_lookup_eq_none hnone, hwidth, List.drop_zero]
  · obtain ⟨r, hr, hmakes⟩ := exists_row_makes hi
    have hdescribes := describes_of_makes r hr hmakes
    have hlookup := lookup_opcode hr
    have hwidth : operandWidth r.opcode = (encode i).tail.length := by
      rw [operandWidth_of_lookup hlookup, hdescribes.width]
    rw [hdescribes.encode, List.cons_append, decode_cons_of_le (by simp [hwidth]), hmakes.instrOf_eq hlookup, hwidth,
      List.drop_left]

/-- Settles O4: the encoder writes the opcode and as many of the bytes read as its width. -/
theorem encodeInvertsDecode : Obligations.EncodeInvertsDecode := by
  intro bytes rest i h
  obtain ⟨op, tl, rfl, hw, rfl, rfl⟩ := decode_eq_ok h
  refine ⟨instrOf_wf _ _ _, ?_⟩
  rw [encode_instrOf, List.cons_append, take_getD_append_drop (operandWidth_le op) hw]

/-- Settles O5: sorted together, the two lists of opcodes are the numbers below 256. -/
theorem opcodeMapIsTotalAndDisjoint : Obligations.OpcodeMapIsTotalAndDisjoint :=
  ⟨rfl, rfl, (List.pairwise_map.mp opcodeTable_opcodes_nodup).imp fun hne heq => hne (congrArg BitVec.toNat heq),
    fun _ => descriptor_eq_none_iff⟩

/-- Settles O6: what the row an opcode finds promises of the instruction its format makes. -/
theorem descriptorSelectsInstruction : Obligations.DescriptorSelectsInstruction := by
  intro op b1 b2
  cases h : lookup op with
  | none => rw [descriptor, h]; exact instrOf_of_lookup_eq_none h b1 b2
  | some r =>
    have hdescribes := describes_instrOf h b1 b2
    rw [descriptor, h]
    exact ⟨hdescribes.mnemonic, hdescribes.mode, (lookup_eq_some h).2 ▸ hdescribes.encode⟩

/-- Settles O2: each by evaluating the decoder on the bytes. -/
theorem writtenOutBytesDecode : Obligations.WrittenOutBytesDecode :=
  ⟨rfl, rfl, rfl, rfl, rfl, rfl, rfl, rfl, rfl, rfl, rfl, rfl, rfl, rfl, rfl, rfl, rfl⟩

end Sys2Proof
end

section
/-! PROOFS. Every instruction as one operation between its fetch and its cycles (R232, R260). `Operation` has one constructor
for each way an instruction uses its operand; `exec_eq` says that `exec` is the fetch, the operation of the mnemonic, and the
cycles of R260, so that what holds of all instructions is proved over the thirteen operations. -/

namespace Sys2Proof.Machine

open Sys2Proof

/-- What an instruction does past its fetch, its operand apart (R105, R154, R180, R190 to R203, R221, R222). -/
inductive Operation where
  | read (f : Byte → State → State)
  | register (f : State → State)
  | store (v : State → Byte)
  | modify (f : Byte → Byte → Byte × Byte)
  | push (v : State → Byte)
  | pull (f : Byte → State → State)
  | branch (f : Flag) (v : Bool)
  | jump
  | call
  | returnSubroutine
  | returnInterrupt
  | haltBreak
  | illegal

def operationOf : Mnemonic → Operation
  | .lda => .read loadA
  | .ldx => .read loadX
  | .ldy => .read loadY
  | .adc => .read addA
  | .sbc => .read subA
  | .and => .read andA
  | .ora => .read orA
  | .eor => .read xorA
  | .bit => .read bitTest
  | .cmp => .read compareA
  | .cpx => .read compareX
  | .cpy => .read compareY
  | .sta => .store State.a
  | .stx => .store State.x
  | .sty => .store State.y
  | .inc => .modify incByte
  | .dec => .modify decByte
  | .asl => .modify shiftLeft
  | .lsr => .modify shiftRight
  | .rol => .modify rotateLeft
  | .ror => .modify rotateRight
  | .tax => .register aToX
  | .tay => .register aToY
  | .txa => .register xToA
  | .tya => .register yToA
  | .tsx => .register spToX
  | .txs => .register xToSp
  | .inx => .register incX
  | .iny => .register incY
  | .dex => .register decX
  | .dey => .register decY
  | .clc => .register (fun t => t.setFlag .carry false)
  | .sec => .register (fun t => t.setFlag .carry true)
  | .cli => .register (fun t => t.setFlag .irqDisable false)
  | .sei => .register (fun t => t.setFlag .irqDisable true)
  | .cld => .register (fun t => t.setFlag .decimal false)
  | .sed => .register (fun t => t.setFlag .decimal true)
  | .clv => .register (fun t => t.setFlag .overflow false)
  | .nop => .register noOperation
  | .pha => .push State.a
  | .php => .push (fun t => pushByteSoftware t.p)
  | .pla => .pull loadA
  | .plp => .pull (fun v t => t.setP (fromByte v))
  | .bcc => .branch .carry false
  | .bcs => .branch .carry true
  | .beq => .branch .zero true
  | .bne => .branch .zero false
  | .bmi => .branch .negative true
  | .bpl => .branch .negative false
  | .bvc => .branch .overflow false
  | .bvs => .branch .overflow true
  | .jmp => .jump
  | .jsr => .call
  | .rts => .returnSubroutine
  | .rti => .returnInterrupt
  | .brk => .haltBreak
  | .illegal => .illegal

/-- The operation of instruction `i` on the state `t` past the fetch. -/
def Operation.run (op : Operation) (i : Instr) (t : State) : State :=
  match op with
  | .read f => f (operandByte i.operand t) t
  | .register f => f t
  | .store v => memWrite t (resolve i.operand t).ea (v t)
  | .modify f => (putResult i.operand (f (operandByte i.operand t) t.p).1 t).setP (f (operandByte i.operand t) t.p).2
  | .push v => Machine.push (v t) t
  | .pull f => f (Machine.pull t).1 (Machine.pull t).2
  | .branch f v => if t.flag f = v then t.setPc (resolve i.operand t).ea else t
  | .jump => t.setPc (resolve i.operand t).ea
  | .call => (Machine.push (loByte (t.pc - 1#16)) (Machine.push (hiByte (t.pc - 1#16)) t)).setPc (resolve i.operand t).ea
  | .returnSubroutine => returnFromSubroutine t
  | .returnInterrupt => returnFromInterrupt t
  | .haltBreak => Machine.haltBreak t
  | .illegal => takeIllegalOpcode i.opcode (t.pc - 1#16) t

def operate (i : Instr) (t : State) : State := (operationOf i.mnemonic).run i t

/-- The cycles of R260, for an `illegal` that carries an official opcode too. -/
def countedCycles (i : Instr) (s : State) : Nat := if i.mnemonic = .illegal then 0 else instrCycles i s

variable {i : Instr} {s : State}

/-! ### The returns, with the slots they pull from counted from SP -/

theorem returnFromSubroutine_slots (t : State) :
    returnFromSubroutine t = (t.setSp (t.sp + 2#8)).setPc
      (word (memRead t (stackAddr (t.sp + 2#8))) (memRead t (stackAddr (t.sp + 1#8))) + 1#16) := by
  rw [returnFromSubroutine_eq, BitVec.add_assoc]; rfl

theorem returnFromInterrupt_slots (t : State) :
    returnFromInterrupt t = ((t.setSp (t.sp + 3#8)).setP (fromByte (memRead t (stackAddr (t.sp + 1#8))))).setPc
      (word (memRead t (stackAddr (t.sp + 3#8))) (memRead t (stackAddr (t.sp + 2#8)))) := by
  rw [returnFromInterrupt_eq, BitVec.add_assoc (t.sp + 1#8), BitVec.add_assoc, BitVec.add_assoc]; rfl

/-! ### `exec` as fetch, operation and cycles -/

/-- The operations whose cycles are the base cycles of their opcode, with no page cross and no branch extra (R260). -/
def Operation.isPlain : Operation → Bool
  | .read _ | .branch _ _ | .illegal => false
  | _ => true

theorem instrCycles_of_plain (h : (operationOf i.mnemonic).isPlain = true) : instrCycles i s = baseCycles i := by
  have hplain : ∀ m, (operationOf m).isPlain = true → readsOperand m = false ∧ m ≠ .illegal ∧ branchCondition m = none := by
    intro m hm
    cases m <;> first | (cases hm; done) | exact ⟨rfl, nofun, rfl⟩
  obtain ⟨hr, hi, hb⟩ := hplain _ h
  exact instrCycles_eq_baseCycles hr hi hb

theorem exec_of_plain (h : (operationOf i.mnemonic).isPlain = true) :
    exec i s = .next ((operate i (fetched i s)).addCycles (baseCycles i)) := by
  cases i <;> first | (cases h; done) | rfl

theorem readsOperand_of_read {m : Mnemonic} {f : Byte → State → State} (h : operationOf m = .read f) :
    readsOperand m = true := by
  cases m <;> first | (cases h; done) | rfl

theorem exec_of_read {f : Byte → State → State} (h : operationOf i.mnemonic = .read f) :
    exec i s = readInstr i.operand (baseCycles i) f s := by
  cases i <;> cases h <;> rfl

theorem branchCondition_of_branch {m : Mnemonic} {f : Flag} {v : Bool} (h : operationOf m = .branch f v) :
    branchCondition m = some (f, v) := by
  cases m <;> cases h <;> rfl

theorem exec_of_branch {f : Flag} {v : Bool} (h : operationOf i.mnemonic = .branch f v) :
    ∃ op8, i.operand = .rel op8 ∧ baseCycles i = 2 ∧ pageCrossExtra i = false ∧ exec i s = branchInstr op8 f v s := by
  cases i <;> cases h <;> exact ⟨_, rfl, rfl, rfl, rfl⟩

theorem mnemonic_of_illegal {m : Mnemonic} (h : operationOf m = .illegal) : m = .illegal := by
  cases m <;> first | (cases h; done) | rfl

theorem branchInstr_eq {op8 : Byte} {f : Flag} {v : Bool} (h : operationOf i.mnemonic = .branch f v) (ho : i.operand = .rel op8)
    (hb : baseCycles i = 2) (hx : pageCrossExtra i = false) :
    branchInstr op8 f v s = .next ((operate i (fetched i s)).addCycles (instrCycles i s)) := by
  rw [operate, h, instrCycles, pageCrossCycles, hx, hb, branchExtra, branchCondition_of_branch h, branchInstr, Operation.run, ho]
  by_cases ht : s.flag f = v
  · simp [ht, crossedPage, fetched, ho, addressOf]
  · simp [ht, fetched, ho]

theorem operate_illegal (op : Byte) (t : State) : operate (.illegal op) t = takeIllegalOpcode op (t.pc - 1#16) t := rfl

/-- Every instruction is its fetch, its operation, and its cycles (R232, R260). -/
theorem exec_eq (i : Instr) (s : State) :
    exec i s = .next ((operate i (fetched i s)).addCycles (countedCycles i s)) := by
  by_cases hi : i.mnemonic = .illegal
  · obtain ⟨op, rfl, hexec⟩ := exec_illegal (s := s) hi
    have hpc : (fetched (.illegal op) s).pc - 1#16 = s.pc := BitVec.add_sub_cancel s.pc 1#16
    rw [hexec, countedCycles, if_pos hi, operate_illegal, hpc, takeIllegalOpcode_frame, takeIllegalOpcode_frame]; rfl
  rw [countedCycles, if_neg hi]
  cases h : operationOf i.mnemonic with
  | illegal => exact absurd (mnemonic_of_illegal h) hi
  | read f => rw [exec_of_read h, instrCycles_of_readsOperand (readsOperand_of_read h), operate, h]; rfl
  | branch f v =>
    obtain ⟨op8, ho, hb, hx, hexec⟩ := exec_of_branch (s := s) h
    rw [hexec, branchInstr_eq h ho hb hx]
  | _ =>
    have hplain : (operationOf i.mnemonic).isPlain = true := by rw [h]; rfl
    rw [exec_of_plain hplain, instrCycles_of_plain hplain]

theorem exec_next {t : State} (h : exec i s = .next t) :
    t = (operate i (fetched i s)).addCycles (countedCycles i s) := by
  rw [exec_eq] at h
  exact (Host.Outcome.next.inj h).symm

end Sys2Proof.Machine
end

section
/-! PROOFS. What each operation leaves alone: PC, the run state and the cycles (R14, R232), the registers (R10 to R13) and the
flags (R17), over the operations of `Operation`. -/

namespace Sys2Proof.Machine

open Sys2Proof

/-- The effect `f` writes A, X, Y, SP and P alone, and reads neither PC nor memory. -/
structure RegisterEffect (f : State → State) : Prop where
  keepsControl : ∀ t, KeepsControl t (f t)
  keepsMem : ∀ t, (f t).mem = t.mem
  setPc : ∀ t a, f (t.setPc a) = (f t).setPc a
  setMem : ∀ t m, f (t.setMem m) = (f t).setMem m

section
variable {m : Mnemonic}

theorem registerEffect_of_read {f : Byte → State → State} (h : operationOf m = .read f) (v : Byte) : RegisterEffect (f v) := by
  cases m <;> cases h <;> exact ⟨fun _ => ⟨rfl, rfl, rfl, rfl⟩, fun _ => rfl, fun _ _ => rfl, fun _ _ => rfl⟩

theorem registerEffect_of_register {f : State → State} (h : operationOf m = .register f) : RegisterEffect f := by
  cases m <;> cases h <;> exact ⟨fun _ => ⟨rfl, rfl, rfl, rfl⟩, fun _ => rfl, fun _ _ => rfl, fun _ _ => rfl⟩

theorem registerEffect_of_pull {f : Byte → State → State} (h : operationOf m = .pull f) (v : Byte) : RegisterEffect (f v) := by
  cases m <;> cases h <;> exact ⟨fun _ => ⟨rfl, rfl, rfl, rfl⟩, fun _ => rfl, fun _ _ => rfl, fun _ _ => rfl⟩

end

variable {i : Instr} {s t : State}

/-! ### PC, run state, halt reason, cycles -/

theorem operate_cycles (i : Instr) (t : State) : (operate i t).cycles = t.cycles := by
  unfold operate
  cases h : operationOf i.mnemonic with
  | read f => exact ((registerEffect_of_read h _).keepsControl t).cycles
  | register f => exact ((registerEffect_of_register h).keepsControl t).cycles
  | pull f => exact ((registerEffect_of_pull h _).keepsControl (pull t).2).cycles
  | modify f => exact putResult_cycles _ _ _
  | branch f v => rw [Operation.run]; split <;> rfl
  | call => simp [Operation.run]
  | returnSubroutine => rw [Operation.run, returnFromSubroutine_slots]; rfl
  | returnInterrupt => rw [Operation.run, returnFromInterrupt_slots]; rfl
  | _ => rfl

/-- Only BRK and the illegal opcode touch the run state (R221, R222, R232). -/
theorem operate_runState (hb : i.mnemonic ≠ .brk) (hi : i.mnemonic ≠ .illegal) (t : State) :
    (operate i t).runState = t.runState ∧ (operate i t).haltReason = t.haltReason := by
  have hhalt : ∀ m, operationOf m = .haltBreak → m = .brk := by
    intro m hm
    cases m <;> first | (cases hm; done) | rfl
  unfold operate
  cases h : operationOf i.mnemonic with
  | read f =>
    have hk := (registerEffect_of_read h (operandByte i.operand t)).keepsControl t
    exact ⟨hk.runState, hk.haltReason⟩
  | register f =>
    have hk := (registerEffect_of_register h).keepsControl t
    exact ⟨hk.runState, hk.haltReason⟩
  | pull f =>
    have hk := (registerEffect_of_pull h (pull t).1).keepsControl (pull t).2
    exact ⟨hk.runState, hk.haltReason⟩
  | modify f => exact ⟨putResult_runState _ _ _, putResult_haltReason _ _ _⟩
  | branch f v => rw [Operation.run]; split <;> exact ⟨rfl, rfl⟩
  | returnSubroutine => rw [Operation.run, returnFromSubroutine_slots]; exact ⟨rfl, rfl⟩
  | returnInterrupt => rw [Operation.run, returnFromInterrupt_slots]; exact ⟨rfl, rfl⟩
  | call => simp [Operation.run]
  | haltBreak => exact absurd (hhalt _ h) hb
  | illegal => exact absurd (mnemonic_of_illegal h) hi
  | _ => exact ⟨rfl, rfl⟩

/-- The operations that write PC are those of the mnemonics R15 lists. -/
theorem operate_pc (h : i.mnemonic ∉ writersPc) (t : State) : (operate i t).pc = t.pc := by
  unfold operate
  cases ho : operationOf i.mnemonic with
  | read f => exact ((registerEffect_of_read ho _).keepsControl t).pc
  | register f => exact ((registerEffect_of_register ho).keepsControl t).pc
  | pull f => exact ((registerEffect_of_pull ho _).keepsControl (pull t).2).pc
  | modify f => exact putResult_pc _ _ _
  | store v => rfl
  | push v => rfl
  | haltBreak => rfl
  | _ =>
    refine absurd ?_ h
    cases hm : i.mnemonic <;> first | decide | (rw [hm] at ho; cases ho)

/-! ### The registers A, X, Y and SP -/

/-- The instructions that write A in every form (R10). -/
def writersA : List Mnemonic := [.lda, .txa, .tya, .pla, .adc, .sbc, .and, .ora, .eor]

/-- A register that mnemonic `m` is not listed for is the same in `t` and `u` (R10 to R13). -/
structure RegistersKept (m : Mnemonic) (t u : State) : Prop where
  a : m ∉ writersA → u.a = t.a
  x : m ∉ writersX → u.x = t.x
  y : m ∉ writersY → u.y = t.y
  sp : m ∉ writersSp → u.sp = t.sp

section
variable {m : Mnemonic}

theorem registersKept_of_read {f : Byte → State → State} (h : operationOf m = .read f) (v : Byte) (t : State) :
    RegistersKept m t (f v t) := by
  cases m <;> cases h <;> constructor <;> first | exact fun _ => rfl | exact fun hm => absurd (by decide) hm

theorem registersKept_of_register {f : State → State} (h : operationOf m = .register f) (t : State) :
    RegistersKept m t (f t) := by
  cases m <;> cases h <;> constructor <;> first | exact fun _ => rfl | exact fun hm => absurd (by decide) hm

theorem registersKept_of_pull {f : Byte → State → State} (h : operationOf m = .pull f) (t : State) :
    RegistersKept m t (f (pull t).1 (pull t).2) := by
  cases m <;> cases h <;> constructor <;> first | exact fun _ => rfl | exact fun hm => absurd (by decide) hm

/-- The other operations that write SP are those of the mnemonics R13 lists. -/
theorem mem_writersSp (h : (∃ v, operationOf m = .push v) ∨ operationOf m = .call ∨ operationOf m = .returnSubroutine ∨
    operationOf m = .returnInterrupt) : m ∈ writersSp := by
  rcases h with ⟨v, h⟩ | h | h | h <;> cases m <;> first | (cases h; done) | decide

end

/-- The registers after an operation; one in memory or on P alone keeps all four. -/
theorem operate_registersKept (hmod : ∀ f, operationOf i.mnemonic ≠ .modify f) (t : State) :
    RegistersKept i.mnemonic t (operate i t) := by
  unfold operate
  cases h : operationOf i.mnemonic with
  | read f => exact registersKept_of_read h _ t
  | register f => exact registersKept_of_register h t
  | pull f => exact registersKept_of_pull h t
  | modify f => exact absurd h (hmod f)
  | push v => exact ⟨fun _ => rfl, fun _ => rfl, fun _ => rfl, absurd (mem_writersSp (.inl ⟨v, h⟩))⟩
  | call => refine ⟨fun _ => ?_, fun _ => ?_, fun _ => ?_, absurd (mem_writersSp (.inr (.inl h)))⟩ <;> simp [Operation.run]
  | returnSubroutine =>
    rw [Operation.run, returnFromSubroutine_slots]
    exact ⟨fun _ => rfl, fun _ => rfl, fun _ => rfl, absurd (mem_writersSp (.inr (.inr (.inl h))))⟩
  | returnInterrupt =>
    rw [Operation.run, returnFromInterrupt_slots]
    exact ⟨fun _ => rfl, fun _ => rfl, fun _ => rfl, absurd (mem_writersSp (.inr (.inr (.inr h))))⟩
  | branch f v => rw [Operation.run]; split <;> exact ⟨fun _ => rfl, fun _ => rfl, fun _ => rfl, fun _ => rfl⟩
  | _ => exact ⟨fun _ => rfl, fun _ => rfl, fun _ => rfl, fun _ => rfl⟩

theorem modify_registersKept (f : Byte → Byte → Byte × Byte) (i : Instr) (t : State) :
    (i.operand ≠ .acc → ((Operation.modify f).run i t).a = t.a) ∧ ((Operation.modify f).run i t).x = t.x ∧
      ((Operation.modify f).run i t).y = t.y ∧ ((Operation.modify f).run i t).sp = t.sp :=
  ⟨fun hacc => by rw [Operation.run, putResult_of_ne_acc hacc]; rfl, putResult_x _ _ _, putResult_y _ _ _, putResult_sp _ _ _⟩

theorem writesA_of_mem (h : i.mnemonic ∈ writersA) : writesA i = true := by
  unfold writesA
  cases hm : i.mnemonic <;> rw [hm] at h <;> first | rfl | exact absurd h (by decide)

theorem writesA_of_modify {f : Byte → Byte → Byte × Byte} (h : operationOf i.mnemonic = .modify f) (ha : i.operand = .acc) :
    writesA i = true := by
  cases i <;> first | (cases ha; done) | rfl

/-- Settles O50: a read-modify-write writes A in its accumulator form alone; the other operations by their mnemonics. -/
theorem registersChangeOnlyByTheirWriters : Obligations.RegistersChangeOnlyByTheirWriters := by
  intro i s t hexec
  rw [exec_next hexec]
  by_cases hmod : ∃ f, operationOf i.mnemonic = .modify f
  · obtain ⟨f, h⟩ := hmod
    obtain ⟨ha, hx, hy, hsp⟩ := modify_registersKept f i (fetched i s)
    rw [operate, h]
    exact ⟨fun hne => writesA_of_modify h (not_imp_comm.mp ha hne), absurd hx, absurd hy, absurd hsp⟩
  · obtain ⟨ha, hx, hy, hsp⟩ := operate_registersKept (not_exists.mp hmod) (fetched i s)
    exact ⟨fun hne => writesA_of_mem (not_imp_comm.mp ha hne), not_imp_comm.mp hx, not_imp_comm.mp hy, not_imp_comm.mp hsp⟩

/-- Settles O51: PC after the fetch is kept by every operation of a mnemonic R15 does not list. -/
theorem pcAdvancesByTheLength : Obligations.PcAdvancesByTheLength := by
  intro i s t hexec hm
  rw [exec_next hexec, State.addCycles_pc, operate_pc hm, State.afterFetch_pc, encode_length, BitVec.toNat_add,
    BitVec.toNat_ofNat, Nat.add_mod_mod]

/-! ### The flags (R17) -/

/-- The flags a mnemonic writes. -/
def flagsWritten : Mnemonic → List Flag
  | .lda | .ldx | .ldy | .tax | .tay | .txa | .tya | .tsx | .pla | .and | .ora | .eor | .inc | .inx | .iny | .dec | .dex
  | .dey => [.zero, .negative]
  | .adc | .sbc => [.carry, .overflow, .zero, .negative]
  | .bit => [.zero, .negative, .overflow]
  | .cmp | .cpx | .cpy | .asl | .lsr | .rol | .ror => [.carry, .zero, .negative]
  | .clc | .sec => [.carry]
  | .cli | .sei => [.irqDisable]
  | .cld | .sed => [.decimal]
  | .clv => [.overflow]
  | .plp | .rti => [.carry, .zero, .irqDisable, .decimal, .brk, .unused, .overflow, .negative]
  | _ => []

theorem flagWriters_of_flagsWritten {m : Mnemonic} {f : Flag} (h : f ∈ flagsWritten m) :
    m ∈ flagWriters f ∨ ((f = .brk ∨ f = .unused) ∧ (m = .plp ∨ m = .rti)) := by
  cases m <;> simp only [flagsWritten, List.mem_cons, List.not_mem_nil, or_false] at h <;>
    first | contradiction | (rcases h with rfl | rfl | rfl | rfl | rfl | rfl | rfl | rfl <;> decide)

section
variable {m : Mnemonic}

theorem mem_flagsWritten_of_forces (h : m = .plp ∨ m = .rti) (g : Flag) : g ∈ flagsWritten m := by
  rcases h with rfl | rfl <;> cases g <;> decide

theorem flagsKept_setZN (v : Byte) {s u : State} (hp : u.p = s.p) : FlagsKeptBut [.zero, .negative] s (u.setZN v) :=
  (zeroNegativeFrom_setZN v hp).2.2

theorem flagsKept_setFlag (f : Flag) (b : Bool) (t : State) : FlagsKeptBut [f] t (t.setFlag f b) :=
  fun _ hg => State.flag_setFlag_ne t b (List.ne_of_not_mem_cons hg)

theorem flagsKept_compare (reg v : Byte) (t : State) : FlagsKeptBut [.carry, .zero, .negative] t (t.setP (compare reg v t.p)) := by
  intro g hg
  obtain ⟨hc, hz, hn⟩ : g ≠ .carry ∧ g ≠ .zero ∧ g ≠ .negative := by simpa using hg
  exact getFlag_compare_ne reg v t.p hc hz hn

theorem flagsKept_addA (v : Byte) (t : State) : FlagsKeptBut [.carry, .overflow, .zero, .negative] t (addA v t) := by
  obtain ⟨-, -, hkept, -⟩ := (addsToA_addA v t).rest
  exact hkept

theorem flagsKept_bitTest (v : Byte) (t : State) : FlagsKeptBut [.zero, .negative, .overflow] t (bitTest v t) := by
  intro g hg
  obtain ⟨hz, hn, hv⟩ : g ≠ .zero ∧ g ≠ .negative ∧ g ≠ .overflow := by simpa using hg
  rw [flag_bitTest, if_neg hv, if_neg hn, if_neg hz]

theorem flagsKept_of_read {f : Byte → State → State} (h : operationOf m = .read f) (v : Byte) (t : State) :
    FlagsKeptBut (flagsWritten m) t (f v t) := by
  cases m <;> cases h
  case adc => exact flagsKept_addA v t
  case sbc => exact flagsKept_addA (~~~v) t
  case bit => exact flagsKept_bitTest v t
  case cmp => exact flagsKept_compare t.a v t
  case cpx => exact flagsKept_compare t.x v t
  case cpy => exact flagsKept_compare t.y v t
  all_goals exact flagsKept_setZN _ rfl

theorem flagsKept_of_register {f : State → State} (h : operationOf m = .register f) (t : State) :
    FlagsKeptBut (flagsWritten m) t (f t) := by
  cases m <;> cases h
  case clc | sec | cli | sei | cld | sed | clv => exact flagsKept_setFlag _ _ t
  case txs | nop => exact fun _ _ => rfl
  all_goals exact flagsKept_setZN _ rfl

theorem getFlag_of_modify {f : Byte → Byte → Byte × Byte} (h : operationOf m = .modify f) (v p : Byte) {g : Flag}
    (hg : g ∉ flagsWritten m) : getFlag g (f v p).2 = getFlag g p := by
  have hshift : g ∉ [Flag.carry, .zero, .negative] → ∀ r out, getFlag g (shifted r out p).2 = getFlag g p := by
    intro hg r out
    obtain ⟨hc, hz, hn⟩ : g ≠ .carry ∧ g ≠ .zero ∧ g ≠ .negative := by simpa using hg
    rw [getFlag_shifted, if_neg hz, if_neg hn, if_neg hc]
  cases m <;> cases h
  case asl | lsr | rol | ror => exact hshift hg _ _
  all_goals
    obtain ⟨hz, hn⟩ : g ≠ .zero ∧ g ≠ .negative := by simpa [flagsWritten] using hg
    exact getFlag_setZN_ne _ p hz hn

/-- Of the two pulls, PLA sets Z and N, and PLP writes every flag. -/
theorem flagsKept_of_pull {f : Byte → State → State} (h : operationOf m = .pull f) (v : Byte) (t : State) :
    FlagsKeptBut (flagsWritten m) t (f v t) := by
  cases m <;> cases h
  case pla => exact flagsKept_setZN _ rfl
  case plp => exact fun g hg => absurd (mem_flagsWritten_of_forces (.inl rfl) g) hg

theorem mnemonic_of_returnInterrupt (h : operationOf m = .returnInterrupt) : m = .rti := by
  cases m <;> first | (cases h; done) | rfl

end

theorem operate_flagsKept (i : Instr) (t : State) : FlagsKeptBut (flagsWritten i.mnemonic) t (operate i t) := by
  unfold operate
  cases h : operationOf i.mnemonic with
  | read f => exact flagsKept_of_read h _ t
  | register f => exact flagsKept_of_register h t
  | pull f => exact flagsKept_of_pull h _ (pull t).2
  | modify f => exact fun g hg => getFlag_of_modify h _ t.p hg
  | branch f v => rw [Operation.run]; split <;> exact fun _ _ => rfl
  | returnInterrupt =>
    exact fun g hg => absurd (mem_flagsWritten_of_forces (.inr (mnemonic_of_returnInterrupt h)) g) hg
  | returnSubroutine => rw [Operation.run, returnFromSubroutine_slots]; exact fun _ _ => rfl
  | call => exact fun g _ => by rw [Operation.run, State.flag_setPc, State.flag_push, State.flag_push]
  | _ => exact fun _ _ => rfl

/-- Settles O49: an operation keeps every flag its mnemonic does not write, and the written ones are listed in R17. -/
theorem flagsChangeOnlyByTheirWriters : Obligations.FlagsChangeOnlyByTheirWriters := by
  intro i s t f hexec hne
  rw [exec_next hexec] at hne
  exact flagWriters_of_flagsWritten (not_imp_comm.mp (operate_flagsKept i (fetched i s) f) hne)

end Sys2Proof.Machine
end

section
/-! PROOFS. The access list (spec/20_memory.md R53 to R57): lists of accesses as such, then the accesses of each operation, and
that the memory after an instruction is what its writes make. -/

namespace Sys2Proof.Machine

open Sys2Proof

/-! ### Lists of accesses -/

/-- Every access of the list is a read of what `s` holds. -/
def ReadsOf (s : State) (as : List Access) : Prop := ∀ a ∈ as, ∃ addr, a = readAccess s addr

section
variable {s : State} {as bs : List Access} {m : Memory} {addr : Addr}

theorem applyWrites_append (as bs : List Access) (m : Memory) :
    applyWrites (as ++ bs) m = applyWrites bs (applyWrites as m) := by
  induction as generalizing m with
  | nil => rfl
  | cons a as ih => cases a <;> exact ih _

theorem readsAgree_append (as bs : List Access) (m : Memory) :
    readsAgree (as ++ bs) m = (readsAgree as m && readsAgree bs (applyWrites as m)) := by
  induction as generalizing m with
  | nil => rfl
  | cons a as ih =>
    cases a with
    | read addr v => simp [readsAgree, applyWrites, ih, Bool.and_assoc]
    | write addr v => exact ih _

theorem ReadsOf.applyWrites_eq (h : ReadsOf s as) (m : Memory) : applyWrites as m = m := by
  induction as with
  | nil => rfl
  | cons a as ih =>
    obtain ⟨⟨addr, rfl⟩, has⟩ := List.forall_mem_cons.mp h
    exact ih has

theorem ReadsOf.readsAgree_eq (h : ReadsOf s as) : readsAgree as s.mem = true := by
  induction as with
  | nil => rfl
  | cons a as ih =>
    obtain ⟨⟨addr, rfl⟩, has⟩ := List.forall_mem_cons.mp h
    rw [readAccess, readsAgree, ih has, Bool.and_true]
    exact beq_self_eq_true _

theorem ReadsOf.write_not_mem (h : ReadsOf s as) (addr : Addr) (v : Byte) : .write addr v ∉ as := by
  intro hw
  obtain ⟨_, heq⟩ := h _ hw
  cases heq

/-- An address no access writes is as before. -/
theorem get_applyWrites_of_not_mem (h : ∀ v, .write addr v ∉ as) : (applyWrites as m).get addr.toNat = m.get addr.toNat := by
  induction as generalizing m with
  | nil => rfl
  | cons a as ih =>
    have has := ih (m := m) fun v hv => h v (List.mem_cons_of_mem a hv)
    cases a with
    | read => exact has
    | write other w =>
      rw [applyWrites, ih fun v hv => h v (List.mem_cons_of_mem _ hv)]
      refine Memory.get_set_ne m w fun heq => h w ?_
      rw [BitVec.eq_of_toNat_eq heq]
      exact List.mem_cons_self

/-- An address all of whose writes write `v` holds `v` in the end. -/
theorem get_applyWrites_of_mem {v : Byte} (hmem : .write addr v ∈ as) (huniq : ∀ w, .write addr w ∈ as → w = v) :
    (applyWrites as m).get addr.toNat = v := by
  induction as generalizing m with
  | nil => cases hmem
  | cons a as ih =>
    by_cases hlater : ∃ w, .write addr w ∈ as
    · obtain ⟨w, hw⟩ := hlater
      have hih := fun m' => ih (m := m') (huniq w (List.mem_cons_of_mem a hw) ▸ hw) fun w' h => huniq w' (List.mem_cons_of_mem a h)
      cases a <;> exact hih _
    · rw [not_exists] at hlater
      obtain rfl := (List.mem_cons.mp hmem).resolve_right (hlater v)
      rw [applyWrites, get_applyWrites_of_not_mem hlater, Memory.get_set_same]

end

/-! ### The accesses of an operation -/

/-- The accesses of an operation past the fetch and the pointer reads (R53, R105). -/
def Operation.accesses (op : Operation) (i : Instr) (t : State) : List Access :=
  match op with
  | .read _ => operandReads i.operand t
  | .store v => [.write (resolve i.operand t).ea (v t)]
  | .modify f => modifyAccesses i.operand f t
  | .push v => [.write (stackAddr t.sp) (v t)]
  | .pull _ => [readAccess t (stackAddr (t.sp + 1#8))]
  | .call => [.write (stackAddr t.sp) (hiByte (t.pc - 1#16)), .write (stackAddr (t.sp - 1#8)) (loByte (t.pc - 1#16))]
  | .returnSubroutine => [readAccess t (stackAddr (t.sp + 1#8)), readAccess t (stackAddr (t.sp + 2#8))]
  | .returnInterrupt =>
    [readAccess t (stackAddr (t.sp + 1#8)), readAccess t (stackAddr (t.sp + 2#8)), readAccess t (stackAddr (t.sp + 3#8))]
  | .register _ | .branch _ _ | .jump | .haltBreak | .illegal => []

variable {i : Instr} {s t : State}

theorem operationAccesses_eq (i : Instr) (t : State) : operationAccesses i t = (operationOf i.mnemonic).accesses i t := by
  rw [operationAccesses]
  cases i.mnemonic <;> rfl

theorem readsOf_operandReads (o : Operand) (t : State) : ReadsOf t (operandReads o t) := by
  cases o <;> simp [ReadsOf, operandReads]

theorem readsOf_pointerAccesses (o : Operand) (t : State) : ReadsOf t (pointerAccesses o t) := by
  cases o <;> simp [ReadsOf, pointerAccesses]

theorem readsOf_fetchAccesses (len : Nat) (s : State) : ReadsOf s (fetchAccesses len s) := by
  intro a ha
  obtain ⟨k, -, rfl⟩ := List.mem_map.mp ha
  exact ⟨_, rfl⟩

/-- Memory after an operation is what the writes of its access list make of memory before it (R53). -/
theorem operate_mem (i : Instr) (t : State) : (operate i t).mem = applyWrites (operationAccesses i t) t.mem := by
  rw [operate, operationAccesses_eq]
  cases h : operationOf i.mnemonic with
  | read f =>
    rw [Operation.accesses, (readsOf_operandReads _ _).applyWrites_eq]
    exact (registerEffect_of_read h _).keepsMem t
  | register f => exact (registerEffect_of_register h).keepsMem t
  | pull f => exact (registerEffect_of_pull h _).keepsMem (pull t).2
  | modify f =>
    by_cases hacc : i.operand = .acc
    · rw [Operation.run, Operation.accesses, hacc]; rfl
    · rw [Operation.run, Operation.accesses, modifyAccesses_of_ne_acc hacc, putResult_of_ne_acc hacc]; rfl
  | branch f v => rw [Operation.run]; split <;> rfl
  | _ => rfl

theorem readsAgree_operationAccesses (i : Instr) (t : State) : readsAgree (operationAccesses i t) t.mem = true := by
  rw [operationAccesses_eq]
  cases h : operationOf i.mnemonic with
  | read f => exact (readsOf_operandReads _ _).readsAgree_eq
  | modify f =>
    by_cases hacc : i.operand = .acc
    · rw [Operation.accesses, hacc]; rfl
    · rw [Operation.accesses, modifyAccesses_of_ne_acc hacc]
      exact Bool.and_eq_true_iff.mpr ⟨beq_self_eq_true _, rfl⟩
  | pull | returnSubroutine | returnInterrupt =>
    exact ReadsOf.readsAgree_eq (by simp [ReadsOf, Operation.accesses])
  | _ => rfl

/-! ### The accesses of an instruction and of a step -/

/-- A step that answers is either the identity on a halted core, with no access, or the instruction at PC (R232). -/
theorem step_next (h : step s = .next t) :
    (s.runState = .halted ∧ t = s ∧ stepAccesses s = []) ∨
      (Fetching s ∧ exec (fetchInstr s) s = .next t ∧ stepAccesses s = instrAccesses (fetchInstr s) s) := by
  rcases step_cases s with ⟨hr, hs⟩ | ⟨hr, hs⟩ | ⟨hr, hs⟩
  · rw [hs] at h; cases h
  · rw [hs] at h; cases h
    exact .inl ⟨hr, rfl, by rw [stepAccesses, hr]⟩
  · refine .inr ⟨hr, hs ▸ h, ?_⟩
    obtain ⟨hu, hh⟩ := hr
    unfold stepAccesses
    split <;> first | rfl | contradiction

theorem exec_mem (h : exec i s = .next t) : t.mem = applyWrites (operationAccesses i (fetched i s)) s.mem := by
  rw [exec_next h, State.addCycles_mem, operate_mem, State.afterFetch_mem]

/-- The fetches and the pointer reads write nothing, so an instruction's writes are its operation's. -/
theorem applyWrites_instrAccesses (i : Instr) (s : State) (m : Memory) :
    applyWrites (instrAccesses i s) m = applyWrites (operationAccesses i (fetched i s)) m := by
  rw [instrAccesses, applyWrites_append, applyWrites_append, (readsOf_fetchAccesses _ _).applyWrites_eq,
    (readsOf_pointerAccesses _ _).applyWrites_eq]

theorem readsAgree_instrAccesses (i : Instr) (s : State) : readsAgree (instrAccesses i s) s.mem = true := by
  rw [instrAccesses, readsAgree_append, readsAgree_append, applyWrites_append, (readsOf_fetchAccesses _ _).applyWrites_eq,
    (readsOf_fetchAccesses _ _).readsAgree_eq, (readsOf_pointerAccesses _ _).applyWrites_eq, Bool.true_and]
  exact Bool.and_eq_true_iff.mpr ⟨(readsOf_pointerAccesses _ (fetched i s)).readsAgree_eq, readsAgree_operationAccesses _ _⟩

/-- Settles O47: the reads before the operation are of memory as it stands, and the operation's own list replays. -/
theorem accessListReplays : Obligations.AccessListReplays := by
  intro s t h
  rcases step_next h with ⟨-, rfl, has⟩ | ⟨-, hexec, has⟩
  · rw [has]; exact ⟨rfl, rfl⟩
  · rw [has]
    exact ⟨readsAgree_instrAccesses _ _, (applyWrites_instrAccesses _ _ _).trans (exec_mem hexec).symm⟩

/-! ### The addresses an instruction stores to -/

/-- The addresses the operation of instruction `i`, run in `s`, stores to. -/
def Operation.stored (op : Operation) (i : Instr) (s : State) : List Addr :=
  match op with
  | .store _ => [addressOf i s]
  | .modify _ => if i.operand = .acc then [] else [addressOf i s]
  | .push _ => [stackAddr s.sp]
  | .call => [stackAddr s.sp, stackAddr (s.sp - 1#8)]
  | _ => []

theorem storedAddresses_eq (i : Instr) (s : State) : storedAddresses i s = (operationOf i.mnemonic).stored i s := by
  rw [storedAddresses]
  cases h : i.mnemonic
  case inc => exact (if_neg (operand_ne_acc_of_incDec (.inl h))).symm
  case dec => exact (if_neg (operand_ne_acc_of_incDec (.inr h))).symm
  all_goals rfl

/-- The stored addresses are those of the writes in the access list (R53). -/
theorem mem_storedAddresses_iff {addr : Addr} :
    addr ∈ storedAddresses i s ↔ ∃ v, .write addr v ∈ operationAccesses i (fetched i s) := by
  rw [storedAddresses_eq, operationAccesses_eq]
  cases h : operationOf i.mnemonic with
  | read f => simp [Operation.stored, Operation.accesses, (readsOf_operandReads _ _).write_not_mem]
  | modify f =>
    by_cases hacc : i.operand = .acc
    · simp [Operation.stored, Operation.accesses, hacc, modifyAccesses]
    · simp [Operation.stored, Operation.accesses, hacc, modifyAccesses_of_ne_acc hacc, readAccess]
  | call => simp [Operation.stored, Operation.accesses, exists_or]
  | _ => simp [Operation.stored, Operation.accesses, readAccess]

theorem exec_sameMemoryBut (h : exec i s = .next t) : SameMemoryBut (storedAddresses i s) s t := by
  intro addr haddr
  rw [mem_storedAddresses_iff, not_exists] at haddr
  rw [memRead, exec_mem h, get_applyWrites_of_not_mem haddr, memRead]

/-- No instruction writes one address twice. -/
theorem operationAccesses_write_unique {addr : Addr} {v w : Byte} (hv : .write addr v ∈ operationAccesses i t)
    (hw : .write addr w ∈ operationAccesses i t) : w = v := by
  rw [operationAccesses_eq] at hv hw
  cases h : operationOf i.mnemonic with
  | read f => rw [h] at hv; exact absurd hv ((readsOf_operandReads i.operand t).write_not_mem addr v)
  | modify f =>
    by_cases hacc : i.operand = .acc
    · simp [h, Operation.accesses, hacc, modifyAccesses] at hv
    · simp_all [Operation.accesses, modifyAccesses_of_ne_acc hacc, readAccess]
  | call =>
    have hne : t.sp ≠ t.sp - 1#8 := by bv_omega
    simp only [h, Operation.accesses, List.mem_cons, Access.write.injEq, List.not_mem_nil, or_false] at hv hw
    rcases hv with ⟨rfl, rfl⟩ | ⟨rfl, rfl⟩ <;> rcases hw with ⟨ha, rfl⟩ | ⟨ha, rfl⟩
    · rfl
    · exact absurd (stackAddr_inj.mp ha) hne
    · exact absurd (stackAddr_inj.mp ha).symm hne
    · rfl
  | _ => simp_all [Operation.accesses, readAccess]

/-- Settles O52: what no access writes is kept, and the slots of a push have the stack page as high byte. -/
theorem memoryChangesOnlyWhereStored : Obligations.MemoryChangesOnlyWhereStored := by
  refine fun i s t hexec => ⟨exec_sameMemoryBut hexec, fun hm addr haddr => ?_⟩
  have hslot : ∃ sp, addr = stackAddr sp := by
    rcases hm with hm | hm | hm <;> rw [storedAddresses, hm] at haddr
    · exact ⟨_, List.mem_singleton.mp haddr⟩
    · exact ⟨_, List.mem_singleton.mp haddr⟩
    · rcases List.mem_pair.mp haddr with rfl | rfl <;> exact ⟨_, rfl⟩
  obtain ⟨sp, rfl⟩ := hslot
  exact hiByte_word _ _

end Sys2Proof.Machine
end

section
/-! PROOFS. A step sees no byte of memory outside its access list (spec/20_memory.md R53): with another memory that holds the same
bytes at the addresses the list reads, the same instruction is fetched, the same operand is resolved, and the operation does
the same. -/

namespace Sys2Proof.Machine

open Sys2Proof

/-- Memory `m` holds what the reads of the list returned. -/
def HoldsReads (m : Memory) (as : List Access) : Prop := ∀ (addr : Addr) (v : Byte), .read addr v ∈ as → m.get addr.toNat = v

section
variable {m : Memory} {as bs : List Access} {s : State} {addr : Addr}

theorem holdsReads_append : HoldsReads m (as ++ bs) ↔ HoldsReads m as ∧ HoldsReads m bs := by
  simp only [HoldsReads, List.mem_append, or_imp, forall_and]

theorem HoldsReads.memRead_eq (h : HoldsReads m as) (hmem : readAccess s addr ∈ as) : memRead (s.setMem m) addr = memRead s addr :=
  h addr _ hmem

end

variable {i : Instr} {o : Operand} {s t : State} {m : Memory}

/-! ### The operand -/

theorem resolve_setMem (h : HoldsReads m (pointerAccesses o t)) : resolve o (t.setMem m) = resolve o t := by
  cases o with
  | ind ptr =>
    have hlow := h.memRead_eq (s := t) (addr := ptr) (by simp [pointerAccesses])
    have hhigh := h.memRead_eq (s := t) (addr := indirectHigh ptr) (by simp [pointerAccesses])
    rw [resolve, hlow, hhigh]; rfl
  | izx op8 =>
    have hlow := h.memRead_eq (s := t) (addr := zeroPage (op8 + t.x)) (by simp [pointerAccesses])
    have hhigh := h.memRead_eq (s := t) (addr := zeroPage (op8 + t.x + 1#8)) (by simp [pointerAccesses])
    rw [resolve, zeroPagePointer, State.setMem_x, hlow, hhigh]; rfl
  | izy op8 =>
    have hlow := h.memRead_eq (s := t) (addr := zeroPage op8) (by simp [pointerAccesses])
    have hhigh := h.memRead_eq (s := t) (addr := zeroPage (op8 + 1#8)) (by simp [pointerAccesses])
    rw [resolve, zeroPagePointer, hlow, hhigh]; rfl
  | _ => rfl

theorem operandByte_setMem (hr : resolve o (t.setMem m) = resolve o t)
    (h : o ≠ .acc → (∀ v, o ≠ .imm v) → memRead (t.setMem m) (resolve o t).ea = memRead t (resolve o t).ea) :
    operandByte o (t.setMem m) = operandByte o t := by
  by_cases hacc : o = .acc
  · rw [hacc]; rfl
  by_cases himm : ∃ v, o = .imm v
  · obtain ⟨v, rfl⟩ := himm; rfl
  · rw [operandByte_of_mem hacc (not_exists.mp himm), operandByte_of_mem hacc (not_exists.mp himm), hr]
    exact h hacc (not_exists.mp himm)

theorem readAccess_mem_operandReads (hacc : o ≠ .acc) (himm : ∀ v, o ≠ .imm v) : readAccess t (resolve o t).ea ∈ operandReads o t := by
  cases o <;> first | exact absurd rfl hacc | exact absurd rfl (himm _) | exact List.mem_singleton_self _

theorem putResult_setMem (hr : resolve o (t.setMem m) = resolve o t) (r : Byte) :
    (putResult o r (t.setMem m)) =
      (putResult o r t).setMem (applyWrites (if o = .acc then [] else [.write (resolve o t).ea r]) m) := by
  by_cases hacc : o = .acc
  · rw [hacc]; rfl
  · rw [putResult_of_ne_acc hacc, putResult_of_ne_acc hacc, hr, if_neg hacc]; rfl

/-! ### The operation -/

theorem registerByte_setMem {mn : Mnemonic} {v : State → Byte} (h : operationOf mn = .store v ∨ operationOf mn = .push v)
    (t : State) (m : Memory) : v (t.setMem m) = v t := by
  rcases h with h | h <;> cases mn <;> cases h <;> rfl

/-- An operation on another memory that holds what it reads does the same to the registers and makes the same writes. -/
theorem operate_setMem (hp : HoldsReads m (pointerAccesses i.operand t)) (ho : HoldsReads m (operationAccesses i t)) :
    operate i (t.setMem m) = (operate i t).setMem (applyWrites (operationAccesses i t) m) := by
  have hr := resolve_setMem hp
  rw [operationAccesses_eq] at ho ⊢
  unfold operate
  cases h : operationOf i.mnemonic with
  | read f =>
    rw [h] at ho
    have hv : operandByte i.operand (t.setMem m) = operandByte i.operand t :=
      operandByte_setMem hr fun hacc himm => ho.memRead_eq (readAccess_mem_operandReads hacc himm)
    rw [Operation.run, Operation.accesses, (readsOf_operandReads _ _).applyWrites_eq, hv,
      (registerEffect_of_read h _).setMem]; rfl
  | register f => exact (registerEffect_of_register h).setMem t m
  | pull f =>
    rw [h] at ho
    have hv : (pull (t.setMem m)).1 = (pull t).1 := ho.memRead_eq (by simp [Operation.accesses])
    rw [Operation.run, hv]
    exact (registerEffect_of_pull h _).setMem (pull t).2 m
  | store v => rw [Operation.run, hr, registerByte_setMem (.inl h)]; rfl
  | push v => rw [Operation.run, registerByte_setMem (.inr h)]; rfl
  | modify f =>
    rw [h] at ho
    by_cases hacc : i.operand = .acc
    · rw [Operation.run, Operation.run, Operation.accesses, hacc]; rfl
    · rw [Operation.accesses, modifyAccesses_of_ne_acc hacc] at ho ⊢
      have hv : operandByte i.operand (t.setMem m) = operandByte i.operand t :=
        operandByte_setMem hr fun _ _ => ho.memRead_eq List.mem_cons_self
      rw [Operation.run, hv, putResult_of_ne_acc hacc, hr, Operation.run, putResult_of_ne_acc hacc]; rfl
  | branch f v =>
    rw [Operation.run, hr, State.flag_setMem, Operation.run]
    split <;> rfl
  | jump => rw [Operation.run, hr]; rfl
  | call => rw [Operation.run, hr]; rfl
  | returnSubroutine =>
    rw [h] at ho
    have hlow := ho.memRead_eq (s := t) (addr := stackAddr (t.sp + 1#8)) (by simp [Operation.accesses])
    have hhigh := ho.memRead_eq (s := t) (addr := stackAddr (t.sp + 2#8)) (by simp [Operation.accesses])
    rw [Operation.run, returnFromSubroutine_slots, State.setMem_sp, hlow, hhigh, Operation.run, returnFromSubroutine_slots]; rfl
  | returnInterrupt =>
    rw [h] at ho
    have hp := ho.memRead_eq (s := t) (addr := stackAddr (t.sp + 1#8)) (by simp [Operation.accesses])
    have hlow := ho.memRead_eq (s := t) (addr := stackAddr (t.sp + 2#8)) (by simp [Operation.accesses])
    have hhigh := ho.memRead_eq (s := t) (addr := stackAddr (t.sp + 3#8)) (by simp [Operation.accesses])
    rw [Operation.run, returnFromInterrupt_slots, State.setMem_sp, hp, hlow, hhigh, Operation.run, returnFromInterrupt_slots]; rfl
  | haltBreak => rfl
  | illegal => rfl

/-! ### The fetch -/

theorem fetchInstr_eq (s : State) :
    fetchInstr s = instrOf (memRead s s.pc) (memRead s (s.pc + 1#16)) (memRead s (s.pc + 2#16)) := by
  show instrOf (memRead s s.pc) (memRead s (s.pc + 1#16)) (memRead s (s.pc + 1#16 + 1#16)) = _
  rw [BitVec.add_assoc]; rfl

theorem length_instrOf (op b1 b2 : Byte) : (instrOf op b1 b2).operand.length = 1 + operandWidth op := by
  have hw := operandWidth_le op
  rw [← encode_length, encode_instrOf, List.length_cons, List.length_take]
  simp
  omega

theorem encode_injective {i j : Instr} (hi : i.wf = true) (hj : j.wf = true) (h : encode i = encode j) : i = j := by
  have hdecode := decodeInvertsEncode i [] hi
  rw [h, decodeInvertsEncode j [] hj] at hdecode
  cases hdecode; rfl

theorem take_pair_congr {w : Nat} (hw : w ≤ 2) {b1 b2 c1 c2 : Byte} (h1 : 1 ≤ w → b1 = c1) (h2 : 2 ≤ w → b2 = c2) :
    [b1, b2].take w = [c1, c2].take w := by
  match w with
  | 0 => rfl
  | 1 => rw [h1 (Nat.le_refl 1)]; rfl
  | 2 => rw [h1 (by decide), h2 (Nat.le_refl 2)]

/-- The decoder looks at no byte past the width of the opcode (R71). -/
theorem instrOf_congr {op b1 b2 c1 c2 : Byte} (h1 : 1 ≤ operandWidth op → b1 = c1) (h2 : 2 ≤ operandWidth op → b2 = c2) :
    instrOf op b1 b2 = instrOf op c1 c2 := by
  refine encode_injective (instrOf_wf _ _ _) (instrOf_wf _ _ _) ?_
  rw [encode_instrOf, encode_instrOf, take_pair_congr (operandWidth_le op) h1 h2]

theorem readAccess_mem_fetchAccesses {len k : Nat} (h : k < len) (s : State) :
    readAccess s (s.pc + BitVec.ofNat 16 k) ∈ fetchAccesses len s :=
  List.mem_map_of_mem (List.mem_range.mpr h)

theorem fetchInstr_setMem (h : HoldsReads m (fetchAccesses (fetchInstr s).operand.length s)) :
    fetchInstr (s.setMem m) = fetchInstr s := by
  have hread : ∀ k, k ≤ operandWidth (memRead s s.pc) →
      memRead (s.setMem m) (s.pc + BitVec.ofNat 16 k) = memRead s (s.pc + BitVec.ofNat 16 k) := by
    intro k hk
    refine h.memRead_eq (readAccess_mem_fetchAccesses ?_ s)
    rw [fetchInstr_eq, length_instrOf]
    omega
  have hop : memRead (s.setMem m) s.pc = memRead s s.pc := by simpa using hread 0 (Nat.zero_le _)
  rw [fetchInstr_eq, fetchInstr_eq s, State.setMem_pc, hop]
  exact instrOf_congr (hread 1) (hread 2)

theorem countedCycles_setMem (hp : HoldsReads m (pointerAccesses i.operand (fetched i s))) :
    countedCycles i (s.setMem m) = countedCycles i s := by
  have hr : resolve i.operand (fetched i (s.setMem m)) = resolve i.operand (fetched i s) := resolve_setMem hp
  rw [countedCycles, instrCycles, pageCrossCycles, branchExtra, addressOf, hr]; rfl

theorem exec_setMem (h : exec i s = .next t) (hp : HoldsReads m (pointerAccesses i.operand (fetched i s)))
    (ho : HoldsReads m (operationAccesses i (fetched i s))) :
    exec i (s.setMem m) = .next (t.setMem (applyWrites (operationAccesses i (fetched i s)) m)) := by
  have hoperate : operate i (fetched i (s.setMem m)) = _ := operate_setMem hp ho
  rw [exec_eq, countedCycles_setMem hp, hoperate, exec_next h]; rfl

/-- Settles O48: the three parts of the access list carry the fetch, the operand and the operation to the other memory. -/
theorem stepReadsOnlyItsAccessList : Obligations.StepReadsOnlyItsAccessList := by
  intro s t m h (hreads : HoldsReads m (stepAccesses s))
  rcases step_next h with ⟨hr, rfl, has⟩ | ⟨hr, hexec, has⟩
  · rw [has, step, stepBody, State.setMem_runState, hr]; rfl
  · rw [has, instrAccesses, holdsReads_append, holdsReads_append] at hreads
    obtain ⟨⟨hfetch, hpointer⟩, hoperation⟩ := hreads
    have hr' : Fetching (s.setMem m) := hr
    rw [step_of_fetching hr', fetchInstr_setMem hfetch, exec_setMem hexec hpointer hoperation, has,
      applyWrites_instrAccesses]

end Sys2Proof.Machine
end

section
/-! PROOFS. One step (spec/60_exceptions.md R230, R232, spec/70_reset_and_hazards.md R260): the instruction it fetches, the run
state it leaves, the cycles it counts, and `run` as an iteration of it (R231). -/

namespace Sys2Proof.Machine

open Sys2Proof

variable {i : Instr} {s t : State}

/-! ### The instruction at PC -/

theorem fetchInstr_wf (s : State) : (fetchInstr s).wf = true := instrOf_wf _ _ _

theorem fetchInstr_of_illegal (h : isIllegalOpcode (memRead s s.pc) = true) : fetchInstr s = .illegal (memRead s s.pc) := by
  rw [fetchInstr_eq, instrOf_of_lookup_eq_none (lookup_eq_none_iff_illegal.mpr h)]

theorem fetchInstr_of_brk (h : memRead s s.pc = 0x00#8) : fetchInstr s = .brk := by
  rw [fetchInstr_eq, h]; rfl

theorem eq_brk_of_mnemonic (h : i.mnemonic = .brk) : i = .brk := by
  cases i <;> first | (cases h; done) | rfl

theorem mnemonic_fetchInstr_ne_brk (h : memRead s s.pc ≠ 0x00#8) : (fetchInstr s).mnemonic ≠ .brk := by
  intro hm
  have hencode := congrArg encode (eq_brk_of_mnemonic hm)
  rw [fetchInstr_eq, encode_instrOf] at hencode
  exact h (List.cons.inj hencode).1

theorem mnemonic_fetchInstr_ne_illegal (h : isIllegalOpcode (memRead s s.pc) = false) : (fetchInstr s).mnemonic ≠ .illegal := by
  intro hm
  obtain ⟨op, hop, -⟩ := exec_illegal (s := s) hm
  have hwf : isIllegalOpcode op = true := by simpa [hop, Instr.wf] using fetchInstr_wf s
  have hencode := congrArg encode hop
  rw [fetchInstr_eq, encode_instrOf] at hencode
  rw [(List.cons.inj hencode).1, hwf] at h
  cases h

/-- Settles O1: three bytes are enough for every opcode, so the decoder and the fetch read the same instruction. -/
theorem stepRunsTheDecodedInstruction : Obligations.StepRunsTheDecodedInstruction := by
  intro s i rest hs hdecode _
  obtain ⟨op, tl, hbytes, -, rfl, -⟩ := decode_eq_ok hdecode
  cases hbytes
  rw [step_of_fetching hs, fetchInstr_eq]; rfl

/-! ### The run state after an instruction -/

theorem exec_running (h : exec i s = .next t) (hb : i.mnemonic ≠ .brk) (hi : i.mnemonic ≠ .illegal) :
    t.runState = .running ∧ t.haltReason = s.haltReason := by
  rw [exec_next h]
  exact operate_runState hb hi (fetched i s)

/-- Settles O35: BRK is by definition the halt with reason Break past its one byte. -/
theorem brkHaltsCleanly : Obligations.BrkHaltsCleanly := ⟨rfl, fun _ => rfl⟩

theorem exec_illegal_eq (op : Byte) (s : State) :
    exec (.illegal op) s = .next { s with runState := .halted, haltReason := some (.illegalOpcode op s.pc) } := rfl

/-- An instruction leaves the core running with the halt reason it had, or halted with a reason. -/
theorem exec_runState (h : exec i s = .next t) :
    (t.runState = .running ∧ t.haltReason = s.haltReason) ∨ (t.runState = .halted ∧ t.haltReason.isSome = true) := by
  by_cases hb : i.mnemonic = .brk
  · obtain rfl := eq_brk_of_mnemonic hb
    cases h; exact .inr ⟨rfl, rfl⟩
  by_cases hi : i.mnemonic = .illegal
  · obtain ⟨op, rfl, -⟩ := exec_illegal (s := s) hi
    cases h; exact .inr ⟨rfl, rfl⟩
  · exact .inl (exec_running h hb hi)

theorem exec_started (h : exec i s = .next t) : Started t := by
  rcases exec_runState h with ⟨hr, -⟩ | ⟨hr, -⟩ <;> rw [Started, hr] <;> decide

theorem stepReport_of_halted (h : s.runState = .halted) : stepReport s = .next (s, 0) := by
  rw [stepReport, step, stepBody, h]
  exact congrArg Host.Outcome.next (Prod.ext rfl (Nat.sub_self _))

theorem step_of_illegal (hs : Fetching s) (h : isIllegalOpcode (memRead s s.pc) = true) :
    step s = .next { s with runState := .halted, haltReason := some (.illegalOpcode (memRead s s.pc) s.pc) } := by
  rw [step_of_fetching hs, fetchInstr_of_illegal h, exec_illegal_eq]

theorem step_of_brk (hs : Fetching s) (h : memRead s s.pc = 0x00#8) :
    step s = .next { s with pc := s.pc + 1#16, cycles := s.cycles + 7, runState := .halted, haltReason := some .brk } := by
  rw [step_of_fetching hs, fetchInstr_of_brk h, brkHaltsCleanly.2]

/-- Settles O36: the exception changes PC to its own address, the run state and the halt reason. -/
theorem illegalOpcodeIsPrecise : Obligations.IllegalOpcodeIsPrecise := by
  refine fun s op => ⟨rfl, fun hs hop => ⟨_, step_of_illegal hs hop, rfl, ?report, stepReport_of_halted rfl⟩⟩
  rw [stepReport, step_of_illegal hs hop]
  exact congrArg Host.Outcome.next (Prod.ext rfl (Nat.sub_self _))

/-- Settles O44: the rows of `step` by the instruction at PC, the rows of the host calls by their definitions. -/
theorem runStateTransitions : Obligations.RunStateTransitions := by
  refine fun s bus budget => ⟨rfl, rfl, fun hu => ⟨?step, ?run, ?irq, ?nmi⟩, fun hs hill hbrk => ?official,
    fun hs hbrk => ⟨_, step_of_brk hs hbrk, rfl, rfl⟩, fun hs hill => ⟨_, step_of_illegal hs hill, rfl, rfl⟩,
    stepReport_of_halted, fun hs => ⟨_, _, if_neg hs, rfl⟩, fun hs hi => ?irqEntry, fun hs hi => ?irqMasked⟩
  case step => rw [step, stepBody, hu]
  case run => rw [run, if_pos hu]
  case irq => rw [triggerIrq, if_pos hu]
  case nmi => rw [triggerNmi, if_pos hu]
  case official =>
    have hexec := exec_eq (fetchInstr s) s
    exact ⟨_, (step_of_fetching hs).trans hexec,
      (exec_running hexec (mnemonic_fetchInstr_ne_brk hbrk) (mnemonic_fetchInstr_ne_illegal hill)).1⟩
  case irqEntry => exact ⟨_, _, by rw [triggerIrq, if_neg hs, hi]; rfl, rfl⟩
  case irqMasked => exact ⟨_, _, by rw [triggerIrq, if_neg hs, hi]; rfl, rfl⟩

/-! ### Cycles (R260) -/

theorem exec_cycles (h : exec i s = .next t) : t.cycles = s.cycles + countedCycles i s := by
  rw [exec_next h, State.addCycles_cycles, operate_cycles, State.afterFetch_cycles]

theorem instrCycles_of_illegal {op : Byte} (h : isIllegalOpcode op = true) (s : State) : instrCycles (.illegal op) s = 0 := by
  have hdescriptor : descriptor (Instr.illegal op).opcode = none := descriptor_eq_none_iff.mpr h
  rw [instrCycles, baseCycles, pageCrossCycles, pageCrossExtra, hdescriptor]; rfl

theorem countedCycles_of_wf (h : i.wf = true) (s : State) : countedCycles i s = instrCycles i s := by
  rw [countedCycles]
  split
  case isTrue hi =>
    obtain ⟨op, rfl, -⟩ := exec_illegal (s := s) hi
    exact (instrCycles_of_illegal h s).symm
  case isFalse => rfl

theorem stepReport_of_fetching (hs : Fetching s) :
    ∃ t, stepReport s = .next (t, instrCycles (fetchInstr s) s) ∧ t.cycles = s.cycles + instrCycles (fetchInstr s) s := by
  have hexec := exec_eq (fetchInstr s) s
  have hcycles := exec_cycles hexec
  rw [countedCycles_of_wf (fetchInstr_wf s)] at hexec hcycles
  refine ⟨_, ?_, hcycles⟩
  rw [stepReport, step_of_fetching hs, hexec]
  exact congrArg Host.Outcome.next (Prod.ext rfl (by rw [hcycles, Nat.add_sub_cancel_left]))

/-- Settles O46: what a step adds to the counter is what the descriptor of its opcode says. -/
theorem stepCountsItsCycles : Obligations.StepCountsItsCycles := by
  refine fun s => ⟨stepReport_of_fetching, fun _ hill => ?illegal, stepReport_of_halted⟩
  rw [fetchInstr_of_illegal hill, instrCycles_of_illegal hill]

/-! ### Bounds on the cycles, from the table (R75) -/

theorem exists_descriptor (h : i.mnemonic ≠ .illegal) :
    ∃ r ∈ opcodeTable, descriptor i.opcode = some r.desc ∧ i.mnemonic = r.desc.mnemonic ∧ i.operand.mode = r.desc.mode := by
  obtain ⟨r, hr, hmakes⟩ := exists_row_makes h
  have hdescribes := describes_of_makes r hr hmakes
  refine ⟨r, hr, ?_, hdescribes.mnemonic, hdescribes.mode⟩
  rw [Instr.opcode, hdescribes.encode, List.headD_cons, descriptor, lookup_opcode hr]; rfl

/-- The least and the most an opcode can cost: the base cycles, with every extra its descriptor allows. -/
theorem cycles_bounds_of_mem : ∀ r ∈ opcodeTable, 2 ≤ r.desc.baseCycles ∧
    r.desc.baseCycles + r.desc.pageCrossExtra.toNat + (if (branchCondition r.desc.mnemonic).isSome then 2 else 0) ≤ 7 := by
  decide +kernel

theorem pageCrossCycles_le (i : Instr) (s : State) : pageCrossCycles i s ≤ (pageCrossExtra i).toNat := by
  rw [pageCrossCycles]
  split
  case isTrue h => rw [h.1]; decide
  case isFalse => exact Nat.zero_le _

theorem branchExtra_le (i : Instr) (s : State) :
    branchExtra i s ≤ if (branchCondition i.mnemonic).isSome then 2 else 0 := by
  rw [branchExtra]
  cases branchCondition i.mnemonic with
  | none => exact Nat.le_refl 0
  | some c =>
    show (if s.flag c.1 = c.2 then _ else _) ≤ 2
    split
    · split <;> decide
    · decide

theorem instrCycles_bounds (h : i.mnemonic ≠ .illegal) (s : State) : 2 ≤ instrCycles i s ∧ instrCycles i s ≤ 7 := by
  obtain ⟨r, hr, hdescriptor, hm, -⟩ := exists_descriptor h
  obtain ⟨hlow, hhigh⟩ := cycles_bounds_of_mem r hr
  have hbase : baseCycles i = r.desc.baseCycles := by rw [baseCycles, hdescriptor]; rfl
  have hcross : pageCrossExtra i = r.desc.pageCrossExtra := by rw [pageCrossExtra, hdescriptor]; rfl
  have hpage := pageCrossCycles_le i s
  have hbranch := branchExtra_le i s
  rw [hcross] at hpage
  rw [hm] at hbranch
  rw [instrCycles, hbase]
  omega

theorem countedCycles_le (i : Instr) (s : State) : countedCycles i s ≤ 7 := by
  rw [countedCycles]
  split
  case isTrue => decide
  case isFalse h => exact (instrCycles_bounds h s).2

/-- Only a step that halts counts no cycle (R260). -/
theorem countedCycles_pos (h : exec i s = .next t) (hr : t.runState ≠ .halted) : 0 < countedCycles i s := by
  rw [countedCycles]
  split
  case isTrue hi =>
    obtain ⟨op, rfl, -⟩ := exec_illegal (s := s) hi
    cases h; exact absurd rfl hr
  case isFalse hi => have := (instrCycles_bounds hi s).1; omega

/-! ### `run` (R231) -/

/-- The loop of `run`, entered in `s` with `used` cycles consumed, stopped in `t` with `total` consumed. -/
structure RunStops (budget used : Nat) (s t : State) (total : Nat) (stop : Stop) : Prop where
  steps : ∃ k, Host.Core.run core k s = .next t
  cycles : t.cycles + used = s.cycles + total
  overshoot : total ≤ budget + 6
  stopped : (t.runState = .halted ∧ stop = .halted t.haltReason) ∨
    (t.runState ≠ .halted ∧ stop = .budgetExhausted ∧ budget ≤ total)

theorem core_run_succ {k : Nat} {u : State} (h : step s = .next t) (hk : Host.Core.run core k t = .next u) :
    Host.Core.run core (k + 1) s = .next u := by
  have hstep : core.step s = .next t := h
  simp only [Host.Core.run, hstep, hk]

/-- Each step that does not halt consumes a cycle of the fuel, and no step more than 7. -/
theorem runLoop_stops (budget : Nat) {fuel used : Nat} (hs : Started s) (hused : used ≤ budget + 6)
    (hfuel : s.runState ≠ .halted → budget ≤ used + fuel) :
    ∃ t total stop, runLoop fuel budget used s = .next (t, total, stop) ∧ RunStops budget used s t total stop := by
  induction fuel generalizing used s with
  | zero =>
    by_cases hh : s.runState = .halted
    · exact ⟨s, used, _, by rw [runLoop, if_pos hh], ⟨0, rfl⟩, rfl, hused, .inl ⟨hh, rfl⟩⟩
    · exact ⟨s, used, _, by rw [runLoop, if_neg hh, ite_self], ⟨0, rfl⟩, rfl, hused, .inr ⟨hh, rfl, hfuel hh⟩⟩
  | succ fuel ih =>
    by_cases hh : s.runState = .halted
    · exact ⟨s, used, _, by rw [runLoop, if_pos hh], ⟨0, rfl⟩, rfl, hused, .inl ⟨hh, rfl⟩⟩
    by_cases hb : budget ≤ used
    · exact ⟨s, used, _, by rw [runLoop, if_neg hh, if_pos hb], ⟨0, rfl⟩, rfl, hused, .inr ⟨hh, rfl, hb⟩⟩
    have hstep : step s = .next _ := (step_of_fetching ⟨hs, hh⟩).trans (exec_eq (fetchInstr s) s)
    have hexec := exec_eq (fetchInstr s) s
    generalize (operate (fetchInstr s) (fetched (fetchInstr s) s)).addCycles (countedCycles (fetchInstr s) s) = u at hstep hexec
    have hcycles := exec_cycles hexec
    have hle := countedCycles_le (fetchInstr s) s
    have hpos := countedCycles_pos hexec
    obtain ⟨t, total, stop, hloop, ⟨k, hk⟩, hc, ho, hstop⟩ :=
      ih (s := u) (used := used + (u.cycles - s.cycles)) (exec_started hexec) (by omega) (fun hu => by
        have := hpos hu
        have := hfuel hh
        omega)
    refine ⟨t, total, stop, ?_, ⟨k + 1, core_run_succ hstep hk⟩, by omega, ho, hstop⟩
    rw [runLoop, if_neg hh, if_neg hb, hstep]
    exact hloop

/-- Settles O45: `budget` steps are enough, as each but the last consumes a cycle. -/
theorem runStopsHaltedOrAtItsBudget : Obligations.RunStopsHaltedOrAtItsBudget := by
  intro budget s hs
  obtain ⟨t, total, stop, hloop, hsteps, hcycles, hover, hstop⟩ :=
    runLoop_stops budget (fuel := budget) (used := 0) hs (Nat.zero_le _) (fun _ => by omega)
  exact ⟨t, total, stop, by rw [run, if_neg hs, hloop], hsteps, hcycles, hover, hstop⟩

/-! ### A store and the next fetch (R57) -/

/-- Settles O59: the next step decodes the bytes memory holds, and memory is what the writes of the access list made it. -/
theorem storeIsSeenByTheNextFetch : Obligations.StoreIsSeenByTheNextFetch := by
  refine fun i s t hexec => ⟨fun hr => ?fetch, fun addr => mem_storedAddresses_iff, fun addr v hv => ?written,
    exec_sameMemoryBut hexec⟩
  case fetch => rw [step_of_fetching ⟨exec_started hexec, hr⟩, fetchInstr_eq]
  case written =>
    rw [memRead, exec_mem hexec]
    exact get_applyWrites_of_mem hv fun w hw => operationAccesses_write_unique hv hw

end Sys2Proof.Machine
end

section
/-! PROOFS. The invariant (spec/10_state.md R18, R22 to R24): every step and every host call keeps it, and construction and reset
establish it. The form of P rests on the writers of its bits (R17), the form of memory on the access list (R53). -/

namespace Sys2Proof.Machine

open Sys2Proof

variable {i : Instr} {s t : State}

/-! ### A step -/

/-- The two instructions that load all of P load a byte `FromByte` made (R195, R203). -/
theorem exec_forcesStatus (h : exec i s = .next t) (hm : i.mnemonic = .plp ∨ i.mnemonic = .rti) : ∃ b, t.p = fromByte b := by
  rw [exec_next h, operate]
  rcases hm with hm | hm <;> rw [hm] <;> exact ⟨_, rfl⟩

/-- B and U are forced by PLP and RTI and kept by every other instruction (R17, R18). -/
theorem exec_statusForm (h : exec i s = .next t) (hs : StatusForm s) : StatusForm t := by
  by_cases hm : i.mnemonic = .plp ∨ i.mnemonic = .rti
  · obtain ⟨b, hb⟩ := exec_forcesStatus h hm
    rw [StatusForm, State.flag, State.flag, hb]
    exact ⟨getFlag_fromByte .unused b, getFlag_fromByte .brk b⟩
  · have hkept : ∀ f, flagWriters f = [] → t.flag f = s.flag f := fun f hf => by
      by_contra hne
      rcases flagsChangeOnlyByTheirWriters i s t f h hne with hw | ⟨-, hw⟩
      · rw [hf] at hw; cases hw
      · exact hm hw
    exact ⟨(hkept .unused rfl).trans hs.1, (hkept .brk rfl).trans hs.2⟩

theorem exec_haltForm (h : exec i s = .next t) (hs : HaltForm s) (hr : s.runState ≠ .halted) : HaltForm t := by
  rcases exec_runState h with ⟨hrun, hreason⟩ | ⟨hrun, hreason⟩
  · rw [HaltForm, hrun, hreason]
    exact iff_of_false (by decide) (mt hs.mpr hr)
  · exact iff_of_true hrun hreason

/-- Settles O37: P by the writers of its bits, the halt reason by the two halting instructions, memory by its writes. -/
theorem stepKeepsTheInvariant : Obligations.StepKeepsTheInvariant := by
  intro s t hs h
  rcases step_next h with ⟨-, rfl, -⟩ | ⟨⟨-, hr⟩, hexec, -⟩
  · exact hs
  · exact ⟨exec_statusForm hexec hs.status, exec_haltForm hexec hs.halt hr, by
      rw [MemoryForm, exec_mem hexec]; exact applyWrites_wf _ hs.memory⟩

/-! ### The host calls -/

theorem goodState_interruptEntry (vector : Addr) (hs : GoodState s) : GoodState (interruptEntry vector s) where
  status := by
    rw [StatusForm, State.flag, State.flag, interruptEntry_p]
    exact ⟨setFlag_keeps_unused _ _ hs.status.1, setFlag_keeps_brk _ _ hs.status.2⟩
  halt := iff_of_false nofun nofun
  memory := interruptEntry_wf vector hs.memory

theorem goodState_resetCore (h : MemoryForm s) : GoodState (resetCore s) where
  status := (by decide : getFlag .unused Config.pReset = true ∧ getFlag .brk Config.pReset = false)
  halt := iff_of_false nofun nofun
  memory := h

theorem goodState_loadBytes (origin : Addr) (bytes : List Byte) (hs : GoodState s) : GoodState (loadBytes origin bytes s) := by
  have hmem := loadBytes_wf origin bytes hs.memory
  rw [loadBytes_frame]
  exact ⟨hs.status, hs.halt, hmem⟩

theorem goodState_runLoop {fuel budget used total : Nat} {stop : Stop} (hs : GoodState s)
    (h : runLoop fuel budget used s = .next (t, total, stop)) : GoodState t := by
  induction fuel generalizing s used with
  | zero =>
    simp only [runLoop, ite_self] at h
    split at h <;> cases h <;> exact hs
  | succ fuel ih =>
    rw [runLoop] at h
    split at h
    · cases h; exact hs
    split at h
    · cases h; exact hs
    cases hstep : step s with
    | next u => rw [hstep] at h; exact ih (stepKeepsTheInvariant s u hs hstep) h
    | fault r => rw [hstep] at h; cases h
    | refused r => rw [hstep] at h; cases h

theorem goodState_call {c : HostCall} (hs : GoodState s) (h : call c s = .next t) : GoodState t := by
  cases c with
  | reset => cases h; exact goodState_resetCore hs.memory
  | step => exact stepKeepsTheInvariant s t hs h
  | run budget =>
    rw [call, run] at h
    split at h
    case h_1 hrun =>
      split at hrun
      · cases hrun
      · cases h; exact goodState_runLoop hs hrun
    all_goals cases h
  | triggerIrq =>
    rw [call] at h
    rcases triggerIrq_cases s with ⟨-, hirq⟩ | ⟨-, -, hirq⟩ | ⟨-, -, hirq⟩ <;> rw [hirq] at h <;> cases h
    · exact hs
    · exact goodState_interruptEntry _ hs
  | triggerNmi =>
    rw [call] at h
    rcases triggerNmi_cases s with ⟨-, hnmi⟩ | ⟨-, hnmi⟩ <;> rw [hnmi] at h <;> cases h
    exact goodState_interruptEntry _ hs
  | load origin bytes =>
    rw [call] at h
    rcases load_cases origin bytes s with ⟨-, hload⟩ | ⟨-, hload⟩ <;> rw [hload] at h <;> cases h
    exact goodState_loadBytes origin bytes hs

/-- Settles O39: by induction on the calls, each of which keeps the invariant. -/
theorem hostCallsKeepTheInvariant : Obligations.HostCallsKeepTheInvariant := by
  intro cs
  induction cs with
  | nil => intro s t hs h; cases h; exact hs
  | cons c cs ih =>
    intro s t hs h
    rw [calls] at h
    cases hc : call c s with
    | next u => rw [hc] at h; exact ih u t (goodState_call hs hc) h
    | fault r => rw [hc] at h; cases h
    | refused r => rw [hc] at h; cases h

/-! ### Construction and reset -/

/-- Settles O40: the free P of a new core is a byte `FromByte` made, and reset replaces every register. -/
theorem constructionHasTheInvariant : Obligations.ConstructionHasTheInvariant := fun _ h =>
  ⟨⟨⟨getFlag_fromByte .unused _, getFlag_fromByte .brk _⟩, iff_of_false nofun nofun, h⟩, goodState_resetCore h⟩

/-- Settles O41: `resetCore` reads nothing of its argument but memory. -/
theorem resetLoadsTheVector : Obligations.ResetLoadsTheVector := fun s u =>
  ⟨rfl, rfl, rfl, rfl, rfl, rfl, rfl, rfl, rfl, fun _ => rfl, fun h => by simp only [resetCore, memRead16, memRead, h], rfl⟩

/-- Settles O38: `State.reset` is the reset of a new core, whose memory is empty. -/
theorem resetStateHasTheInvariant : Obligations.ResetStateHasTheInvariant :=
  (constructionHasTheInvariant [] rfl).2

end Sys2Proof.Machine
end

section
/-! PROOFS. Branches, the indirect jump and the returns (spec/47_branch.md R180 to R188, spec/48_jump_call.md R191 to R195,
spec/49_stack_flags_system.md R203). -/

namespace Sys2Proof.Machine

open Sys2Proof

/-! ### Branches (R180) -/

theorem branchesOn_of_exec {f : Flag} {v : Bool} {i : Instr} {op8 : Byte} {s : State} (he : exec i s = branchInstr op8 f v s) :
    BranchesOn f v i op8 s := by
  rw [BranchesOn, he, branchInstr]
  by_cases ht : s.flag f = v
  · have hcycles : (2 + (1 + if crossedPage (s.pc + 2#16) (s.pc + 2#16 + sext16 op8) then 1 else 0)) =
        if hiByte (s.pc + 2#16) = hiByte (s.pc + 2#16 + sext16 op8) then 3 else 4 := by
      by_cases hp : hiByte (s.pc + 2#16) = hiByte (s.pc + 2#16 + sext16 op8) <;> simp [crossedPage, hp]
    rw [State.flag_afterFetch, if_pos ht, if_pos ht, if_pos ht, ← hcycles]; rfl
  · rw [State.flag_afterFetch, if_neg ht, if_neg ht, if_neg ht]; rfl

/-- Settles O21: each branch is `branchInstr` of its flag and the value it is taken on. -/
theorem branchesFollowTheirFlag : Obligations.BranchesFollowTheirFlag :=
  ⟨rfl, rfl, rfl, rfl, rfl, rfl, rfl, rfl, fun _ _ =>
    ⟨branchesOn_of_exec rfl, branchesOn_of_exec rfl, branchesOn_of_exec rfl, branchesOn_of_exec rfl, branchesOn_of_exec rfl,
      branchesOn_of_exec rfl, branchesOn_of_exec rfl, branchesOn_of_exec rfl⟩⟩

/-! ### JMP indirect (R100, R191) -/

theorem word_hiByte_loByte_succ {a : Addr} (h : loByte a ≠ 0xFF#8) : word (hiByte a) (loByte a + 1#8) = a + 1#16 := by
  have hlow : (loByte a).toNat ≠ 255 := fun heq => h (BitVec.eq_of_toNat_eq heq)
  rw [loByte_toNat] at hlow
  apply BitVec.eq_of_toNat_eq
  rw [word_toNat, hiByte_toNat, BitVec.toNat_add, loByte_toNat, BitVec.toNat_add, BitVec.toNat_ofNat, BitVec.toNat_ofNat]
  have ha := a.isLt
  omega

/-- Away from the end of a page the two values of the OPEN parameter agree. -/
theorem indirectHigh_eq (ptr : Addr) :
    indirectHigh ptr = if Config.jmpIndPageWrap = true then word (hiByte ptr) (loByte ptr + 1#8) else ptr + 1#16 := by
  rw [indirectHigh]
  by_cases hlow : loByte ptr = 0xFF#8
  · simp only [hlow, true_and]
  · rw [if_neg (fun h => hlow h.1), word_hiByte_loByte_succ hlow, ite_self]

/-- Settles O23: `jumpInstr` of an operand that resolves to the word at the pointer. -/
theorem jmpIndirectReadsItsPointer : Obligations.JmpIndirectReadsItsPointer := by
  refine ⟨rfl, fun addr s => ?_⟩
  rw [← indirectHigh_eq]; rfl

/-! ### The returns (R193 to R195, R203) -/

/-- Settles O26: the two bytes the RTS pulls name the last byte of the JSR. -/
theorem callThenReturnComesBack : Obligations.CallThenReturnComesBack := by
  intro addr s t u hjsr husp huhigh hulow
  obtain ⟨-, hcall⟩ := jsrPushesReturnAddress
  obtain ⟨-, t', ht', -, hsp, hhigh, hlow, -⟩ := hcall addr s
  obtain rfl : t = t' := Host.Outcome.next.inj (hjsr.symm.trans ht')
  have hslot2 : u.sp + 2#8 = s.sp := by rw [husp, hsp, BitVec.sub_add_cancel]
  have hslot1 : u.sp + 1#8 = s.sp - 1#8 := by rw [husp, hsp]; bv_omega
  refine ⟨_, rtsPullsPcPlusOne.2 u, ?_, hslot2⟩
  show word (memRead u (stackAddr (u.sp + 2#8))) (memRead u (stackAddr (u.sp + 1#8))) + 1#16 = _
  rw [hslot2, hslot1, huhigh, hulow, hhigh, hlow, word_hiByte_loByte, BitVec.add_assoc]; rfl

/-- Settles O27: three pulls read the three slots above SP, and PC past the one byte of the RTI is replaced. -/
theorem rtiPullsStatusAndPc : Obligations.RtiPullsStatusAndPc := by
  refine ⟨rfl, fun s => ?_⟩
  show impliedInstr 6 returnFromInterrupt s = _
  rw [impliedInstr, returnFromInterrupt_slots]
  cases s; rfl

theorem pullP_keepsControl (s : State) : KeepsControl s (pullP s) := ⟨rfl, rfl, rfl, rfl⟩

theorem pullP_flag (s : State) (f : Flag) : (pullP s).flag f = getFlag f (fromByte (memRead s (stackAddr (s.sp + 1#8)))) := rfl

theorem pullP_frame (s : State) : (pullP s).a = s.a ∧ (pullP s).x = s.x ∧ (pullP s).y = s.y ∧ SameMemory s (pullP s) := by
  simp [pullP, SameMemory]

/-- Settles O31: `impliedInstr` of one pull, whose byte goes to P through `FromByte`. -/
theorem plpPullsStatus : Obligations.PlpPullsStatus := by
  refine ⟨rfl, fun s => ⟨_, completes_impliedInstr (exec_plp rfl) rfl (by decide) (pullP_keepsControl _), rfl, ?_⟩⟩
  refine ⟨?unused, ?brk, fun f hu hb => ?copied, pullP_frame _⟩ <;> rw [State.flag_addCycles, pullP_flag, getFlag_fromByte]
  case unused => exact if_pos rfl
  case brk => rw [if_neg (by decide), if_pos rfl]
  case copied => rw [if_neg hu, if_neg hb, memRead_afterFetch, State.afterFetch_sp]

end Sys2Proof.Machine
end

section
/-! PROOFS. Interrupts (spec/60_exceptions.md R224 to R229): what an entry stores and leaves alone, the masking of IRQ, and the
RTI that undoes an entry. -/

namespace Sys2Proof.Machine

open Sys2Proof

/-- The state of an entry after its three pushes, high byte of PC first (R226). -/
def entryPushes (s : State) : State := push (pushByteInterrupt s.p) (push (loByte s.pc) (push (hiByte s.pc) s))

section
variable (s : State)

theorem entryPushes_high : memRead (entryPushes s) (stackAddr s.sp) = hiByte s.pc := by
  have hne1 : s.sp ≠ s.sp - 1#8 := by bv_omega
  have hne2 : s.sp ≠ s.sp - 1#8 - 1#8 := by bv_omega
  exact (memRead_push_other_slot _ hne2).trans ((memRead_push_other_slot _ hne1).trans (memRead_push_slot _ s))

theorem entryPushes_low : memRead (entryPushes s) (stackAddr (s.sp - 1#8)) = loByte s.pc := by
  have hne : s.sp - 1#8 ≠ s.sp - 1#8 - 1#8 := by bv_omega
  exact (memRead_push_other_slot _ hne).trans (memRead_push_slot _ (push _ s))

theorem entryPushes_status : memRead (entryPushes s) (stackAddr (s.sp - 2#8)) = pushByteInterrupt s.p := by
  have hslot : s.sp - 2#8 = s.sp - 1#8 - 1#8 := (BitVec.sub_sub s.sp 1#8 1#8).symm
  rw [hslot]
  exact memRead_push_slot _ (push _ (push _ s))

theorem entryPushes_sameMemoryBut :
    SameMemoryBut [stackAddr s.sp, stackAddr (s.sp - 1#8), stackAddr (s.sp - 2#8)] s (entryPushes s) := by
  have hslot : s.sp - 2#8 = s.sp - 1#8 - 1#8 := (BitVec.sub_sub s.sp 1#8 1#8).symm
  rw [hslot]
  exact sameMemoryBut_push (sameMemoryBut_push (push_sameMemoryBut_slot _ s) _) _

theorem interruptEntry_sp_eq (vector : Addr) : (interruptEntry vector s).sp = s.sp - 3#8 := by
  rw [interruptEntry_sp, BitVec.sub_sub, BitVec.sub_sub]; rfl

/-- A vector outside the stack page is read as it was before the pushes. -/
theorem entryPushes_memRead {addr : Addr} (h : hiByte addr ≠ Config.stackPage) :
    memRead (entryPushes s) addr = memRead s addr := by
  have hne : ∀ sp, addr ≠ stackAddr sp := fun sp heq => h (heq ▸ hiByte_word _ _)
  exact entryPushes_sameMemoryBut s addr (by simp [hne])

theorem interruptEntry_flag (vector : Addr) (g : Flag) :
    (interruptEntry vector s).flag g = (s.setFlag .irqDisable true).flag g := by
  rw [State.flag, interruptEntry_p]; rfl

theorem memRead_interruptEntry (vector addr : Addr) : memRead (interruptEntry vector s) addr = memRead (entryPushes s) addr := by
  rw [memRead, interruptEntry_mem]; rfl

theorem entersThrough_interruptEntry {vector : Addr} (hlow : hiByte vector ≠ Config.stackPage)
    (hhigh : hiByte (vector + 1#16) ≠ Config.stackPage) : EntersThrough vector s (interruptEntry vector s) := by
  simp only [EntersThrough, SameMemoryBut, FlagsKeptBut, memRead_interruptEntry, interruptEntry_flag]
  refine ⟨entryPushes_high s, entryPushes_low s, entryPushes_status s, entryPushes_sameMemoryBut s,
    interruptEntry_sp_eq s vector, State.flag_setFlag_same s true nofun nofun,
    fun f hf => State.flag_setFlag_ne s true (List.ne_of_not_mem_cons hf), ?pc, interruptEntry_cycles vector s, rfl, rfl,
    interruptEntry_a vector s, interruptEntry_x vector s, interruptEntry_y vector s⟩
  rw [interruptEntry_pc, memRead16]
  exact congrArg₂ word (entryPushes_memRead s hhigh) (entryPushes_memRead s hlow)

end

/-- Settles O42: the three cases of the two triggers. -/
theorem irqIsMaskedByTheIFlag : Obligations.IrqIsMaskedByTheIFlag := by
  refine fun s hs => ⟨fun hi => ?_, fun hi => ?_, if_neg hs⟩ <;> rw [triggerIrq, if_neg hs, hi] <;> rfl

/-- Settles O43: both vectors lie outside the stack page. -/
theorem interruptEntrySavesPcAndStatus : Obligations.InterruptEntrySavesPcAndStatus := by
  intro s hs
  obtain ⟨-, hirq, hnmi⟩ := irqIsMaskedByTheIFlag s hs
  exact ⟨⟨_, hnmi, entersThrough_interruptEntry s (by decide) (by decide)⟩,
    fun hi => ⟨_, hirq hi, entersThrough_interruptEntry s (by decide) (by decide)⟩⟩

/-- The slots the three pulls of an RTI read, from the SP an entry leaves. -/
theorem entrySlots (sp : Byte) : sp - 3#8 + 3#8 = sp ∧ sp - 3#8 + 2#8 = sp - 1#8 ∧ sp - 3#8 + 1#8 = sp - 2#8 := by
  refine ⟨?_, ?_, ?_⟩ <;> bv_omega

/-- Settles O28: RTI pulls the three bytes of the entry, and `FromByte` leaves a P in the form of R18 alone. -/
theorem rtiUndoesInterruptEntry : Obligations.RtiUndoesInterruptEntry := by
  intro s vector ⟨hu, hb⟩
  obtain ⟨hslot3, hslot2, hslot1⟩ := entrySlots s.sp
  have hexec := rtiPullsStatusAndPc.2 (interruptEntry vector s)
  rw [interruptEntry_sp_eq, hslot3, hslot2, hslot1, memRead_interruptEntry, memRead_interruptEntry, memRead_interruptEntry,
    entryPushes_high, entryPushes_low, entryPushes_status, word_hiByte_loByte] at hexec
  refine ⟨_, hexec, rfl, ?p, rfl, interruptEntry_a vector s, interruptEntry_x vector s, interruptEntry_y vector s⟩
  show fromByte (pushByteInterrupt s.p) = s.p
  rw [pushByteInterrupt_eq_fromByte, fromByte_of_form hu hb, fromByte_of_form hu hb]

end Sys2Proof.Machine
end

section
/-! PROOFS. The addressing-mode resolver as arithmetic on naturals (spec/40_addressing.md R91 to R104). -/

namespace Sys2Proof.Machine

open Sys2Proof

/-! ### Extensions and pointers -/

theorem zext16_toNat (b : Byte) : (zext16 b).toNat = b.toNat :=
  BitVec.toNat_setWidth_of_le (by decide)

theorem zeroPage_toNat (b : Byte) : (zeroPage b).toNat = b.toNat := by
  rw [zeroPage, word_toNat, BitVec.toNat_ofNat, Nat.zero_mod, Nat.mul_zero, Nat.zero_add]

theorem add_zext16_toNat (base : Addr) (index : Byte) : (base + zext16 index).toNat = (base.toNat + index.toNat) % 65536 := by
  rw [BitVec.toNat_add, zext16_toNat]

theorem zeroPagePointer_toNat (s : State) (z : Byte) :
    (zeroPagePointer s z).toNat = 256 * (s.mem.get ((z.toNat + 1) % 256)).toNat + (s.mem.get z.toNat).toNat := by
  rw [zeroPagePointer, word_toNat, memRead, memRead, zeroPage_toNat, zeroPage_toNat, BitVec.toNat_add]; rfl

theorem indirectHigh_toNat (ptr : Addr) :
    (indirectHigh ptr).toNat = if Config.jmpIndPageWrap = true then 256 * (ptr.toNat / 256) + (ptr.toNat + 1) % 256
      else (ptr.toNat + 1) % 65536 := by
  rw [indirectHigh_eq]
  split
  · rw [word_toNat, hiByte_toNat, BitVec.toNat_add, loByte_toNat, Nat.mod_add_mod]; rfl
  · rw [BitVec.toNat_add]; rfl

/-- The sign extension of a byte adds it as a signed number (R103). -/
theorem add_sext16_toNat (a : Addr) (b : Byte) : ((a + sext16 b).toNat : Int) = ((a.toNat : Int) + b.toInt) % 65536 := by
  have hmsb : b.msb = decide (128 ≤ b.toNat) := BitVec.msb_eq_decide b
  rw [BitVec.toNat_add, sext16, BitVec.toNat_signExtend, BitVec.toNat_setWidth_of_le (by decide), hmsb, toInt_eq_of_byte]
  by_cases h : 128 ≤ b.toNat
  · rw [decide_eq_true h, if_pos rfl, if_neg (Nat.not_lt.mpr h)]
    omega
  · rw [decide_eq_false h, if_neg Bool.false_ne_true, if_pos (Nat.lt_of_not_le h)]
    omega

/-- Settles O53: mode by mode, each address as the sum it is defined by. -/
theorem resolverAddressesWrap : Obligations.ResolverAddressesWrap := by
  refine fun s op8 addr => ⟨rfl, rfl, ?imm, ?immFetched, zeroPage_toNat op8, ?zpx, ?zpy, rfl, add_zext16_toNat addr s.x,
    add_zext16_toNat addr s.y, ?ind, ?izx, ?izy, add_sext16_toNat s.pc op8⟩
  case imm =>
    show (s.pc - 1#16).toNat = _
    rw [BitVec.toNat_sub, Nat.add_comm]; rfl
  case immFetched =>
    show (s.pc + 2#16 - 1#16).toNat = _
    bv_omega
  case zpx =>
    show (zeroPage (op8 + s.x)).toNat = _
    rw [zeroPage_toNat, BitVec.toNat_add]
  case zpy =>
    show (zeroPage (op8 + s.y)).toNat = _
    rw [zeroPage_toNat, BitVec.toNat_add]
  case ind =>
    show (word (memRead s (indirectHigh addr)) (memRead s addr)).toNat = _
    rw [word_toNat, memRead, indirectHigh_toNat]; rfl
  case izx =>
    show (zeroPagePointer s (op8 + s.x)).toNat = _
    rw [zeroPagePointer_toNat, BitVec.toNat_add, Nat.mod_add_mod]
  case izy =>
    show (zeroPagePointer s op8 + zext16 s.y).toNat = _
    rw [add_zext16_toNat, zeroPagePointer_toNat]

/-! ### The page cross (R104) -/

/-- A carry out of the low byte, across the end of memory too. -/
theorem crossedPage_add_zext16_iff (base : Addr) (index : Byte) :
    crossedPage base (base + zext16 index) = true ↔ 255 < (loByte base).toNat + index.toNat := by
  have hbase := base.isLt
  have hindex := index.isLt
  rw [crossedPage, bne_iff_ne, ne_eq, ← BitVec.toNat_inj, hiByte_toNat, hiByte_toNat, add_zext16_toNat, loByte_toNat]
  omega

theorem pageCrossExtra_iff_of_mem : ∀ r ∈ opcodeTable, r.desc.pageCrossExtra = true ↔
    r.desc.mode ∈ [Mode.abx, .aby, .izy] ∧ r.desc.mnemonic ∈ [Mnemonic.lda, .ldx, .ldy, .adc, .sbc, .and, .ora, .eor, .cmp] := by
  decide +kernel

/-- Settles O54: the report by the carry, its absence by the mode, and the opcodes that pay from the table. -/
theorem pageCrossIsCarryOutOfTheLowByte : Obligations.PageCrossIsCarryOutOfTheLowByte := by
  refine ⟨fun s addr op8 => ⟨crossedPage_add_zext16_iff _ _, crossedPage_add_zext16_iff _ _, crossedPage_add_zext16_iff _ _⟩,
    fun s o hmode => Bool.eq_false_iff.mpr (mt mode_of_crossed hmode), fun i hwf => ?_⟩
  by_cases hi : i.mnemonic = .illegal
  · obtain ⟨op, rfl, -⟩ := exec_illegal (s := State.reset) hi
    have hdescriptor : descriptor (Instr.illegal op).opcode = none := descriptor_eq_none_iff.mpr hwf
    rw [pageCrossExtra, hdescriptor]
    exact iff_of_false nofun (fun h => absurd h.2 (by simp [Instr.mnemonic]))
  · obtain ⟨r, hr, hdescriptor, hm, hmode⟩ := exists_descriptor hi
    rw [pageCrossExtra, hdescriptor, hm, hmode]
    exact pageCrossExtra_iff_of_mem r hr

end Sys2Proof.Machine
end

section
/-! PROOFS. The image a load installs (spec/20_memory.md R45), and the byte images and writes of P (spec/10_state.md R18, R20). -/

namespace Sys2Proof.Machine

open Sys2Proof

/-! ### `load` -/

section
variable {origin addr : Addr} {bytes : List Byte} {s : State}

theorem add_one_add_ofNat (origin : Addr) (k : Nat) : origin + 1#16 + BitVec.ofNat 16 k = origin + BitVec.ofNat 16 (k + 1) := by
  rw [BitVec.add_assoc, BitVec.ofNat_add, BitVec.add_comm 1#16]

theorem memRead_loadBytes_outside (h : ∀ k < bytes.length, addr ≠ origin + BitVec.ofNat 16 k) :
    memRead (loadBytes origin bytes s) addr = memRead s addr := by
  induction bytes generalizing origin s with
  | nil => rfl
  | cons b rest ih =>
    have hhead : addr ≠ origin := by simpa using h 0 (Nat.succ_pos _)
    rw [loadBytes, ih fun k hk => add_one_add_ofNat origin k ▸ h (k + 1) (Nat.succ_lt_succ hk), memRead_memWrite_ne _ _ hhead]

/-- No byte of an image that fits is overwritten by a later one. -/
theorem memRead_loadBytes_inside (hlen : bytes.length ≤ 65536) {k : Nat} (hk : k < bytes.length) :
    memRead (loadBytes origin bytes s) (origin + BitVec.ofNat 16 k) = bytes[k] := by
  induction bytes generalizing origin s k with
  | nil => cases hk
  | cons b rest ih =>
    rw [List.length_cons] at hlen hk
    cases k with
    | zero =>
      have hlater : ∀ j < rest.length, origin + BitVec.ofNat 16 0 ≠ origin + 1#16 + BitVec.ofNat 16 j := by
        intro j hj heq
        rw [add_one_add_ofNat, BitVec.add_right_inj] at heq
        have := congrArg BitVec.toNat heq
        simp only [BitVec.toNat_ofNat] at this
        omega
      rw [loadBytes, memRead_loadBytes_outside hlater, BitVec.add_zero, memRead_memWrite_same]; rfl
    | succ k =>
      rw [← add_one_add_ofNat]
      exact ih (by omega) (Nat.lt_of_succ_lt_succ hk)

end

/-- Settles O55: `load` writes the bytes in order and nothing else, and refuses the longer image. -/
theorem loadInstallsTheImage : Obligations.LoadInstallsTheImage := by
  refine fun origin bytes s => ⟨fun hlen => ⟨_, if_pos hlen, loadBytes_frame origin bytes s,
    fun k hk => memRead_loadBytes_inside hlen hk, fun addr h => memRead_loadBytes_outside h⟩, fun hlen => if_neg ?_⟩
  exact Nat.not_le.mpr hlen

/-! ### P -/

/-- Settles O56: bit by bit; the byte of an interrupt is the byte `FromByte` makes. -/
theorem statusByteImages : Obligations.StatusByteImages := by
  intro p f
  rw [pushByteInterrupt_eq_fromByte, getFlag_pushByteSoftware, getFlag_fromByte]
  refine ⟨?_, ?_, ?_, fromByte_of_form⟩ <;> cases f <;> rfl

/-- Every bit of P after a write of one of the six stored flags. -/
theorem getFlag_setFlag {f : Flag} (hu : f ≠ .unused) (hb : f ≠ .brk) (g : Flag) (b : Bool) (p : Byte) :
    getFlag g (setFlag f b p) = if g = f then b else getFlag g p := by
  split
  case isTrue hg => rw [hg, getFlag_setFlag_same b p hu hb]
  case isFalse hg => exact getFlag_setFlag_ne b p hg

/-- Settles O57: the two refused writes by definition, the six others by the rules of a written flag. -/
theorem setNeverClearsUnusedOrSetsBreak : Obligations.SetNeverClearsUnusedOrSetsBreak :=
  fun p _ g b => ⟨rfl, rfl, fun hu hb => getFlag_setFlag hu hb g b p⟩

end Sys2Proof.Machine
end

section
/-! PROOFS. Two comparisons of runs: the immediate and the absolute form on the same operand (spec/40_addressing.md R96), and an
instruction before and after a change of D (spec/42_arithmetic.md R132). -/

namespace Sys2Proof.Machine

open Sys2Proof

variable {i j : Instr} {s t : State} {f : Byte → State → State}

/-! ### The immediate and the absolute form (R96) -/

theorem read_of_imm {v : Byte} (h : i.operand = .imm v) : (∃ f, operationOf i.mnemonic = .read f) ∧ baseCycles i = 2 := by
  cases i <;> cases h <;> exact ⟨⟨_, rfl⟩, rfl⟩

theorem baseCycles_of_read_abs {addr : Addr} (h : operationOf i.mnemonic = .read f) (ho : i.operand = .abs addr) :
    baseCycles i = 4 := by
  cases i <;> first | (cases ho; done) | (cases h; done) | rfl

theorem exec_of_read_imm {v : Byte} (h : operationOf i.mnemonic = .read f) (ho : i.operand = .imm v) (hb : baseCycles i = 2) :
    exec i s = .next ((f v (s.afterFetch 2)).addCycles 2) := by
  rw [exec_of_read h, ho, hb]; rfl

theorem exec_of_read_abs {addr : Addr} (h : operationOf i.mnemonic = .read f) (ho : i.operand = .abs addr) :
    exec i s = .next (((f (memRead s addr) (s.afterFetch 2)).setPc (s.pc + 3#16)).addCycles 4) := by
  rw [exec_of_read h, ho, baseCycles_of_read_abs h ho, ← (registerEffect_of_read h (memRead s addr)).setPc]; rfl

/-- Settles O58: both forms run one effect on the same byte, which neither reads nor writes PC. -/
theorem immediateAndAbsoluteAgree : Obligations.ImmediateAndAbsoluteAgree := by
  intro i j s v addr hm hi hj hv
  obtain ⟨⟨f, hread⟩, hbase⟩ := read_of_imm hi
  have habs := exec_of_read_abs (s := s) (hm ▸ hread) hj
  have hpc : (f v (s.afterFetch 2)).pc = s.pc + 2#16 := ((registerEffect_of_read hread v).keepsControl _).pc
  have hnext : s.pc + 3#16 = (f v (s.afterFetch 2)).pc + 1#16 := by rw [hpc, BitVec.add_assoc]; rfl
  rw [hv, hnext] at habs
  exact ⟨_, _, exec_of_read_imm hread hi hbase, habs, rfl⟩

/-! ### P with D changed (R17, R132) -/

/-- A second write of D leaves nothing of the first. -/
theorem State.setDecimal_setDecimal (t : State) (b c : Bool) :
    (t.setFlag .decimal b).setFlag .decimal c = t.setFlag .decimal c := by
  refine congrArg t.setP (eq_of_getFlag_eq fun k => ?_)
  simp only [State.setFlag_p, getFlag_setFlag (f := .decimal) nofun nofun]
  split <;> rfl

/-- The writes of two stored flags can be made in either order. -/
theorem setFlag_setDecimal {g : Flag} (hg : g ∉ [Flag.unused, .brk, .decimal]) (b c : Bool) (p : Byte) :
    setFlag g c (setFlag .decimal b p) = setFlag .decimal b (setFlag g c p) := by
  obtain ⟨hu, hb, hd⟩ : g ≠ .unused ∧ g ≠ .brk ∧ g ≠ .decimal := by simpa using hg
  apply eq_of_getFlag_eq
  intro k
  simp only [getFlag_setFlag hu hb, getFlag_setFlag (f := .decimal) nofun nofun]
  by_cases hk : k = g
  · rw [if_pos hk, if_neg (hk ▸ hd), if_pos hk]
  · rw [if_neg hk, if_neg hk]

theorem setZN_setDecimal (v : Byte) (b : Bool) (p : Byte) : setZN v (setFlag .decimal b p) = setFlag .decimal b (setZN v p) := by
  rw [setZN, setZN, setFlag_setDecimal (by decide), setFlag_setDecimal (by decide)]

theorem compare_setDecimal (reg v : Byte) (b : Bool) (p : Byte) :
    compare reg v (setFlag .decimal b p) = setFlag .decimal b (compare reg v p) := by
  rw [compare, compare, setFlag_setDecimal (by decide), setFlag_setDecimal (by decide),
    setFlag_setDecimal (by decide)]

theorem State.setFlag_setDecimal (t : State) {g : Flag} (hg : g ∉ [Flag.unused, .brk, .decimal]) (b c : Bool) :
    (t.setFlag .decimal b).setFlag g c = (t.setFlag g c).setFlag .decimal b :=
  congrArg t.setP (Machine.setFlag_setDecimal hg b c t.p)

theorem State.setZN_setDecimal (t : State) (v : Byte) (b : Bool) :
    (t.setFlag .decimal b).setZN v = (t.setZN v).setFlag .decimal b :=
  congrArg t.setP (Machine.setZN_setDecimal v b t.p)

theorem State.setA_setFlag (t : State) (v : Byte) (g : Flag) (b : Bool) : (t.setFlag g b).setA v = (t.setA v).setFlag g b := rfl

/-! ### Operations with D changed -/

/-- Changing D before the effect `f` is changing it after. -/
def CommutesWithDecimal (f : State → State) : Prop := ∀ (t : State) (b : Bool), f (t.setFlag .decimal b) = (f t).setFlag .decimal b

/-- The adder reads C and no other flag: no D (R132). -/
theorem addA_commutesWithDecimal (v : Byte) : CommutesWithDecimal (addA v) := by
  intro t b
  have hcarry : (t.setFlag .decimal b).flag .carry = t.flag .carry := State.flag_setFlag_ne t b nofun
  rw [addA, hcarry, State.setFlag_a, State.setA_setFlag, State.setFlag_setDecimal _ (by decide),
    State.setFlag_setDecimal _ (by decide), State.setZN_setDecimal, addA]

theorem bitTest_commutesWithDecimal (v : Byte) : CommutesWithDecimal (bitTest v) := by
  intro t b
  rw [bitTest, bitTest, State.setFlag_setDecimal _ (by decide), State.setFlag_setDecimal _ (by decide),
    State.setFlag_setDecimal _ (by decide)]; rfl

section
variable {m : Mnemonic}

theorem commutesWithDecimal_of_read (h : operationOf m = .read f) (v : Byte) : CommutesWithDecimal (f v) := by
  cases m <;> cases h
  case adc => exact addA_commutesWithDecimal v
  case sbc => exact addA_commutesWithDecimal (~~~v)
  case bit => exact bitTest_commutesWithDecimal v
  case cmp | cpx | cpy => exact fun t b => congrArg t.setP (compare_setDecimal _ v b t.p)
  case ldx => exact fun t b => State.setZN_setDecimal (t.setX _) _ b
  case ldy => exact fun t b => State.setZN_setDecimal (t.setY _) _ b
  all_goals exact fun t b => State.setZN_setDecimal (t.setA _) _ b

theorem commutesWithDecimal_of_register {f : State → State} (h : operationOf m = .register f) (hc : m ≠ .cld) (hs : m ≠ .sed) :
    CommutesWithDecimal f := by
  cases m <;> cases h
  case cld => exact absurd rfl hc
  case sed => exact absurd rfl hs
  case clc | sec | cli | sei | clv => exact fun t b => State.setFlag_setDecimal t (by decide) b _
  case txs | nop => exact fun _ _ => rfl
  case txa | tya => exact fun t b => State.setZN_setDecimal (t.setA _) _ b
  case tay | iny | dey => exact fun t b => State.setZN_setDecimal (t.setY _) _ b
  all_goals exact fun t b => State.setZN_setDecimal (t.setX _) _ b

theorem commutesWithDecimal_of_pull (h : operationOf m = .pull f) (hm : m ≠ .plp) (v : Byte) : CommutesWithDecimal (f v) := by
  cases m <;> cases h
  case pla => exact fun t b => State.setZN_setDecimal (t.setA _) _ b
  case plp => exact absurd rfl hm

theorem modify_setDecimal {f : Byte → Byte → Byte × Byte} (h : operationOf m = .modify f) (v p : Byte) (b : Bool) :
    f v (setFlag .decimal b p) = ((f v p).1, setFlag .decimal b (f v p).2) := by
  have hshift : ∀ r out, shifted r out (setFlag .decimal b p) = (r, setFlag .decimal b (shifted r out p).2) := fun r out => by
    rw [shifted, Machine.setFlag_setDecimal (by decide), Machine.setZN_setDecimal, shifted]
  have hcarry : getFlag .carry (setFlag .decimal b p) = getFlag .carry p := getFlag_setFlag_ne b p nofun
  cases m <;> cases h
  case inc | dec => exact congrArg _ (Machine.setZN_setDecimal _ b p)
  case asl | lsr => exact hshift _ _
  case rol => rw [rotateLeft, hcarry, hshift, rotateLeft]; rfl
  case ror => rw [rotateRight, hcarry, hshift, rotateRight]; rfl

theorem registerByte_setDecimal {v : State → Byte} (h : operationOf m = .store v ∨ operationOf m = .push v) (hm : m ≠ .php)
    (t : State) (b : Bool) : v (t.setFlag .decimal b) = v t := by
  rcases h with h | h <;> cases m <;> cases h <;> first | rfl | exact absurd rfl hm

theorem branchFlag_ne_decimal {g : Flag} {v : Bool} (h : branchCondition m = some (g, v)) : g ≠ .decimal := by
  cases m <;> cases h <;> decide

end

theorem resolve_setFlag (o : Operand) (t : State) (g : Flag) (b : Bool) : resolve o (t.setFlag g b) = resolve o t := by
  cases o <;> rfl

theorem operandByte_setFlag (o : Operand) (t : State) (g : Flag) (b : Bool) : operandByte o (t.setFlag g b) = operandByte o t := by
  cases o <;> rfl

theorem putResult_setFlag (o : Operand) (r : Byte) (t : State) (g : Flag) (b : Bool) :
    putResult o r (t.setFlag g b) = (putResult o r t).setFlag g b := by
  cases o <;> rfl

/-- The instructions that push D or load it. -/
def decimalUsers : List Mnemonic := [.php, .plp, .rti, .cld, .sed]

theorem operate_setDecimal (hm : i.mnemonic ∉ decimalUsers) (t : State) (b : Bool) :
    operate i (t.setFlag .decimal b) = (operate i t).setFlag .decimal b := by
  obtain ⟨hphp, hplp, hrti, hcld, hsed⟩ :
      i.mnemonic ≠ .php ∧ i.mnemonic ≠ .plp ∧ i.mnemonic ≠ .rti ∧ i.mnemonic ≠ .cld ∧ i.mnemonic ≠ .sed := by
    simpa [decimalUsers] using hm
  unfold operate
  cases h : operationOf i.mnemonic with
  | read f => rw [Operation.run, operandByte_setFlag, commutesWithDecimal_of_read h]; rfl
  | register f => exact commutesWithDecimal_of_register h hcld hsed t b
  | store v => rw [Operation.run, resolve_setFlag, registerByte_setDecimal (.inl h) hphp]; rfl
  | push v => rw [Operation.run, registerByte_setDecimal (.inr h) hphp]; rfl
  | modify f =>
    rw [Operation.run, operandByte_setFlag, State.setFlag_p, modify_setDecimal h, putResult_setFlag]
    rfl
  | pull f => exact commutesWithDecimal_of_pull h hplp _ (pull t).2 b
  | branch g v =>
    have hg : g ≠ .decimal := branchFlag_ne_decimal (branchCondition_of_branch h)
    rw [Operation.run, resolve_setFlag, State.flag_setFlag_ne t b hg, Operation.run]
    split <;> rfl
  | returnInterrupt => exact absurd (mnemonic_of_returnInterrupt h) hrti
  | jump => rw [Operation.run, resolve_setFlag]; rfl
  | call => rw [Operation.run, resolve_setFlag]; rfl
  | _ => rfl

/-- The four instructions that write D whatever it was. -/
theorem operate_setDecimal_of_writer (hm : i.mnemonic ∈ [Mnemonic.plp, .rti, .cld, .sed]) (t : State) (b : Bool) :
    operate i (t.setFlag .decimal b) = operate i t := by
  simp only [List.mem_cons, List.not_mem_nil, or_false] at hm
  unfold operate
  rcases hm with hm | hm | hm | hm <;> rw [hm]
  · rfl
  · rfl
  · exact t.setDecimal_setDecimal b false
  · exact t.setDecimal_setDecimal b true

theorem countedCycles_setDecimal (i : Instr) (s : State) (b : Bool) :
    countedCycles i (s.setFlag .decimal b) = countedCycles i s := by
  have hr : resolve i.operand (fetched i (s.setFlag .decimal b)) = resolve i.operand (fetched i s) :=
    resolve_setFlag i.operand (fetched i s) .decimal b
  have hbranch : branchExtra i (s.setFlag .decimal b) = branchExtra i s := by
    rw [branchExtra, branchExtra]
    cases h : branchCondition i.mnemonic with
    | none => rfl
    | some c =>
      have hflag := State.flag_setFlag_ne s b (branchFlag_ne_decimal (g := c.1) (v := c.2) h)
      dsimp only
      rw [hflag, addressOf, hr]; rfl
  rw [countedCycles, instrCycles, pageCrossCycles, hr, hbranch]; rfl

theorem exec_setDecimal (hm : i.mnemonic ∉ decimalUsers) (h : exec i s = .next t) (b : Bool) :
    exec i (s.setFlag .decimal b) = .next (t.setFlag .decimal b) := by
  have hoperate : operate i (fetched i (s.setFlag .decimal b)) = _ := operate_setDecimal hm (fetched i s) b
  rw [exec_eq, countedCycles_setDecimal, hoperate, exec_next h]; rfl

theorem exec_setDecimal_of_writer (hm : i.mnemonic ∈ [Mnemonic.plp, .rti, .cld, .sed]) (h : exec i s = .next t) (b : Bool) :
    exec i (s.setFlag .decimal b) = .next t := by
  have hoperate : operate i (fetched i (s.setFlag .decimal b)) = _ := operate_setDecimal_of_writer hm (fetched i s) b
  rw [exec_eq, countedCycles_setDecimal, hoperate, exec_next h]

/-- Settles O13: the writers of D overwrite it, PHP apart every other instruction carries it along. -/
theorem decimalFlagIsOnlyStored : Obligations.DecimalFlagIsOnlyStored := by
  refine fun i s t b h => ⟨fun hm => exec_setDecimal ?_ h b, fun hphp => ?_⟩
  · rcases hm with hm | hm <;> rw [hm] <;> decide
  · by_cases hm : i.mnemonic ∈ [Mnemonic.plp, .rti, .cld, .sed]
    · exact ⟨t, exec_setDecimal_of_writer hm h b, rfl⟩
    · refine ⟨_, exec_setDecimal (List.not_mem_cons_of_ne_of_not_mem hphp hm) h b, ?_⟩
      exact t.setDecimal_setDecimal b false

end Sys2Proof.Machine
end
